-- ==== Sys2Proof/Word.lean ====
section
/-! DEFINITION. The word types of the NC-46: bytes, 32-bit addresses and numbers, words and blocks of memory. -/

namespace Sys2Proof

/-- One byte. -/
abbrev Byte := BitVec 8

/-- A 32-bit byte address (00_scope.md, "Conventions"). -/
abbrev Addr := BitVec 32

/-- A 32-bit number: sequence, session, serial, generation, count. -/
abbrev Word32 := BitVec 32

/-- The 8 bytes of a WORD access; byte i of memory order stands at bits 8i to 8i+7. -/
abbrev WordData := BitVec 64

/-- The 64 bytes of a block; byte i of memory order stands at bits 8i to 8i+7. -/
abbrev BlockData := BitVec 512

end Sys2Proof
end

