-- ==== Sys2Proof/Config.lean ====
section
/-! DEFINITION. What the spec fixes as constants of the part, and the two values it leaves open. -/

namespace Sys2Proof.Config

/-- Bytes of a block (00_scope.md, "Terms": 40H). -/
abbrev blockBytes : Nat := 0x40

/-- Granularity of windows and of the log base (R6, R18). -/
abbrev pageBytes : Nat := 0x1000

/-- One past the last byte address (R6). -/
abbrev addressEnd : Nat := 0x100000000

/-- Windows of the window table (R6). -/
abbrev windowCount : Nat := 8

/-- Bytes of the two anchors, and of one slot (R18). -/
abbrev slotBytes : Nat := 0x80

/-- Smallest and largest slot count (R18). -/
abbrev minSlots : Nat := 64
abbrev maxSlots : Nat := 1048576

/-- Levels of the epoch stack (R40). -/
abbrev maxDepth : Nat := 6

/-- Hold entries (R95). -/
abbrev holdEntries : Nat := 8

/-- Sets and ways of the capture filter (R62). -/
abbrev filterSets : Nat := 256
abbrev filterWays : Nat := 4

/-- Capture contexts (R74). -/
abbrev contextCount : Nat := 4

/-- Grants to others after which a waiting master path is served (R160). -/
abbrev fairnessLimit : Nat := 4

/-- Event records queued, and largest lost-event count (R183). -/
abbrev eventCapacity : Nat := 16
abbrev lostLimit : Nat := 255

/-- Longest rotation period in ms (R58). -/
abbrev maxPeriod : Nat := 60000

/-- Largest retry limit (R157). -/
abbrev maxRetries : Nat := 15

/-- Signatures of a record header (R20) and of an anchor (R33). -/
abbrev recordSignature : Word32 := 0x3C5A96E1#32
abbrev anchorSignature : Word32 := 0x3C5AA50F#32

/-- Format byte of a record header (R20). -/
abbrev recordFormat : Byte := 0x01#8

/-- The CRC-32 polynomial in reflected form (R188). -/
abbrev crcPolynomial : Word32 := 0xEDB88320#32

/-- FREE VALUE (log 8). R33 does not say which of two VALID anchors is newer when their generations (A's, then B's)
differ by exactly 80000000H; true stands for A. Nothing evaluates it. -/
opaque antipodalTakesA : Word32 → Word32 → Bool

/-- FREE VALUE (log 31). R175 has SDO driven while CS is low; with no frame in progress no rule gives the byte: the
`i`th of the period that `n` rises of CS that ended no frame came before. Nothing evaluates it. -/
opaque unframedByte (n i : Nat) : Byte

end Sys2Proof.Config
end

