-- ==== Sys2Proof/Syntax.lean ====
section
/-! DEFINITION. The commands of the NC-46: one constructor of `Instr` per row of spec/opcode_table.json, with the
operands the spec gives that row. -/

namespace Sys2Proof

/-- A memory request, upstream (1.1) or downstream (R153): kind and size with the fields each carries. -/
inductive MemRequest where
  | readWord (addr : Addr)
  | readBlock (addr : Addr)
  | writeWord (addr : Addr) (mask : BitVec 8) (data : WordData)
  | writeBlock (addr : Addr) (data : BlockData)
  deriving DecidableEq, Repr

/-- A response of memory that is not OKAY (R154). -/
inductive MemFailure where
  | busy
  | derr
  deriving DecidableEq, Repr

/-- A response of memory (R154). OKAY carries the bytes of a read; a WORD read uses the low 8 of them, a write none. -/
inductive MemReply where
  | okay (data : BlockData)
  | failed (f : MemFailure)
  deriving DecidableEq, Repr

/-- The four requesters of the downstream arbiter (R159). -/
inductive Requester where
  | lc
  | re
  | ce
  | masterPath
  deriving DecidableEq, Repr

/-- The commands and steps of the part. Each docstring names its row of the table. -/
inductive Instr where
  /-- PIN_RESET: RESETn goes low. -/
  | pinReset
  /-- FAULT_ASSERTION -/
  | faultAssertion
  /-- FAULT_DEASSERTION -/
  | faultDeassertion
  /-- UPSTREAM_REQUEST: the master presents `r`. -/
  | upstreamRequest (r : MemRequest)
  /-- NOP -/
  | nop
  /-- STATUS -/
  | status
  /-- EVENT -/
  | event
  /-- LEVEL of level `k`. -/
  | level (k : Byte)
  /-- SETWIN -/
  | setwin (index : Byte) (base limit : Word32) (mode : Byte)
  /-- CLRWIN -/
  | clrwin (index : Byte)
  /-- SETLOG -/
  | setlog (base slots : Word32)
  /-- SETOPT_WRITE_MODE -/
  | setoptWriteMode (value : Word32)
  /-- SETOPT_RETRY_LIMIT -/
  | setoptRetryLimit (value : Word32)
  /-- SETOPT_LOG_FULL_POLICY -/
  | setoptLogFullPolicy (value : Word32)
  /-- SETOPT_HIGH_WATER_MARK -/
  | setoptHighWaterMark (value : Word32)
  /-- SETOPT_FAULT_POLICY -/
  | setoptFaultPolicy (value : Word32)
  /-- SETOPT_ROTATION_PERIOD -/
  | setoptRotationPeriod (value : Word32)
  /-- ATTACH_KEEP: ATTACH whose argument byte is not FORMAT's code; 00H is KEEP (log 9). -/
  | attachKeep (arg : Byte)
  /-- ATTACH_FORMAT -/
  | attachFormat
  /-- RECOVER -/
  | recover
  /-- DETACH -/
  | detach
  /-- OPEN -/
  | openEpoch
  /-- COMMIT -/
  | commit
  /-- ROTATE -/
  | rotate
  /-- ROLLBACK to level `j`. -/
  | rollback (j : Byte)
  /-- ABORT -/
  | abort
  /-- RESUME -/
  | resume
  /-- DISCARD -/
  | discard
  /-- THAW -/
  | thaw
  /-- FRAME_ERROR: CS rises on a frame of these complete bytes that carries no command. -/
  | frameError (bytes : List Byte)
  /-- ROTATION_TIMER_EXPIRY -/
  | rotationTimerExpiry
  /-- PENDING_ROTATION_TAKEN -/
  | pendingRotationTaken
  /-- FAULT_LATCH_TAKEN -/
  | faultLatchTaken
  /-- CONSIDERATION -/
  | consideration
  /-- DOWNSTREAM_GRANT; `first` is the requester taken first where requests came to stand together (log 17). -/
  | downstreamGrant (first : Requester)
  /-- DOWNSTREAM_REISSUE: memory answers `f` below the limit. -/
  | downstreamReissue (f : MemFailure)
  /-- MASTER_READ_COMPLETE -/
  | masterReadComplete (r : MemReply)
  /-- MASTER_WRITE_COMPLETE -/
  | masterWriteComplete
  /-- MASTER_WRITE_FAILED: the last response is `f`. -/
  | masterWriteFailed (f : MemFailure)
  /-- CAPTURE_READ_COMPLETE -/
  | captureReadComplete (data : BlockData)
  /-- CAPTURE_PAYLOAD_WRITE_COMPLETE -/
  | capturePayloadWriteComplete
  /-- CAPTURE_HEADER_WRITE_COMPLETE -/
  | captureHeaderWriteComplete
  /-- CAPTURE_REQUEST_FAILED -/
  | captureRequestFailed (f : MemFailure)
  /-- MARKER_WRITE_COMPLETE -/
  | markerWriteComplete
  /-- MARKER_WRITE_FAILED -/
  | markerWriteFailed (f : MemFailure)
  /-- VOID_WRITE_COMPLETE -/
  | voidWriteComplete
  /-- VOID_WRITE_FAILED -/
  | voidWriteFailed (f : MemFailure)
  /-- ANCHOR_WRITE_COMPLETE -/
  | anchorWriteComplete
  /-- ANCHOR_WRITE_FAILED -/
  | anchorWriteFailed (f : MemFailure)
  /-- ANCHOR_READ_COMPLETE -/
  | anchorReadComplete (r : MemReply)
  /-- TAIL_READ_COMPLETE -/
  | tailReadComplete (r : MemReply)
  /-- REPLAY_READ_COMPLETE -/
  | replayReadComplete (r : MemReply)
  /-- RESTORE_WRITE_COMPLETE -/
  | restoreWriteComplete (r : MemReply)
  /-- SCAN_READ_COMPLETE -/
  | scanReadComplete (r : MemReply)
  /-- RECOVERY_READ_COMPLETE -/
  | recoveryReadComplete (r : MemReply)
  /-- RECOVERY_RESTORE_COMPLETE -/
  | recoveryRestoreComplete (r : MemReply)
  /-- ATTACH_DRAIN_END -/
  | attachDrainEnd
  /-- ORDERING_WAIT_END -/
  | orderingWaitEnd
  /-- COMMIT_WAIT_END -/
  | commitWaitEnd
  /-- ROTATE_WAIT_END -/
  | rotateWaitEnd
  /-- SETTLING_END -/
  | settlingEnd
  /-- DETACH_COMPLETE -/
  | detachComplete
  /-- RESETN_RELEASE, with the level of the FAULT line at that moment. -/
  | resetnRelease (faultActive : Bool)
  /-- FRAME_BEGIN: CS falls. -/
  | frameBegin
  /-- SETOPT_UNKNOWN_OPTION: SETOPT whose option id is not 1 to 6. -/
  | setoptUnknownOption (id : Byte) (value : Word32)
  /-- RESPONSE_TO_ABANDONED_REQUEST -/
  | responseToAbandonedRequest (r : MemReply)
  deriving DecidableEq, Repr

/-- Where a memory request goes. -/
def MemRequest.addr : MemRequest → Addr
  | .readWord a => a
  | .readBlock a => a
  | .writeWord a _ _ => a
  | .writeBlock a _ => a

/-- A read or a write. -/
def MemRequest.isWrite : MemRequest → Bool
  | .readWord _ => false
  | .readBlock _ => false
  | .writeWord _ _ _ => true
  | .writeBlock _ _ => true

/-- A BLOCK or a WORD request. -/
def MemRequest.isBlock : MemRequest → Bool
  | .readWord _ => false
  | .readBlock _ => true
  | .writeWord _ _ _ => false
  | .writeBlock _ _ => true

/-- The option id and value of a SETOPT (R180). -/
abbrev OptionSetting := Byte × Word32

end Sys2Proof
end

