-- ==== Sys2Proof/Machine/State.lean ====
section
/-! DEFINITION. The state of the NC-46 as plain data, block by block, and its value after reset. The reset values of
fields the spec does not name are the model's (log 3, 5, 11, 17, 31). -/

namespace Sys2Proof.Machine

/-! ## Outcomes -/

/-- Faults of the machine: none. The spec gives every command and event an effect in every state, so no meaning
raises a fault and the type has no constructor (safe: nothing stops where the part goes on). -/
inductive Fault where
  deriving DecidableEq, Repr

/-- Refusals of the machine. -/
inductive Refusal where
  /-- Raised by no meaning; an arm of `exec` whose command has no meaning yet would answer it (safe: it stops). -/
  | notModelled (mnemonic : String)
  deriving DecidableEq, Repr

/-! ## Operation Controller -/

/-- Part modes (R135). -/
inductive Mode where
  | offline | attaching | suspect | recovering | online | fenced
  deriving DecidableEq, Repr

/-- Operation states (R46). -/
inductive OpState where
  | idle | opening | committing | rotating | rolling | halted | detaching
  deriving DecidableEq, Repr

/-- Fence reasons (R169). -/
inductive FenceReason where
  | none | frozen | brokenFault | logDead
  deriving DecidableEq, Repr

/-- Condition codes (12.3, Event record). -/
inductive Condition where
  | none | memBusy | memError | badSignature | badCheck | badSession | badSequence | badSerial | badAddress
  | aborted | noSpace | noAnchor | logDead
  deriving DecidableEq, Repr

/-- What started a rotation (R45). -/
inductive RotationOrigin where
  | command | timer
  deriving DecidableEq, Repr

/-- One entry of the epoch stack (R40). -/
structure Level where
  serial : Word32
  start : Option Nat
  durable : Bool
  broken : Bool
  captures : Word32
  deriving DecidableEq, Repr

/-- The successor record of a running rotation (R45). -/
structure Successor where
  serial : Word32
  origin : RotationOrigin
  marker : Option Nat
  deriving DecidableEq, Repr

/-- How far an OPEN, COMMIT or ROTATE has come (R49 to R57); implied by the rules, the model's own field (log 11). -/
inductive OpPhase where
  | none
  /-- OPEN: the ordering wait (R49). -/
  | openWait
  /-- OPEN: its marker reserved, not yet passed (R50, R51). -/
  | openMarker
  /-- OPEN failed at depth 0: the reclaiming anchor (R51); keeps the failed serial. -/
  | openReclaim (serial : Word32)
  /-- Outermost COMMIT: the commit wait (R53). -/
  | commitWait
  /-- Outermost COMMIT: its anchor (R54). -/
  | commitAnchor
  /-- ROTATE: the commit wait (R55). -/
  | rotateWait
  /-- ROTATE, free-slot form: the marker, then the anchor (R56). -/
  | rotateMarker
  | rotateAnchor
  /-- ROTATE, no-slot form: the first anchor, then the marker (R57). -/
  | rotateFirstAnchor
  | rotateLateMarker (origin : RotationOrigin)
  /-- ROTATE, no-slot form, failed marker: the reclaiming anchor (R57). -/
  | rotateReclaim
  deriving DecidableEq, Repr

/-- ATTACH arguments (R137). -/
inductive AttachArg where
  | keep | format
  deriving DecidableEq, Repr

/-- Attach phases (R137). -/
inductive AttachPhase where
  | draining | reading | writing
  deriving DecidableEq, Repr

/-- The attach in progress (R137). -/
structure Attach where
  phase : AttachPhase
  arg : AttachArg
  deriving DecidableEq, Repr

/-- The Operation Controller. -/
@[ext] structure Controller where
  mode : Mode
  op : OpState
  phase : OpPhase
  /-- The epoch stack, level 1 first (R40). -/
  stack : List Level
  stamp : Word32
  successor : Option Successor
  /-- The capture bar: the serial it is set on (R77). -/
  bar : Option Word32
  latch : Bool
  /-- The last level seen on the FAULT line (R164). -/
  faultLine : Bool
  fence : FenceReason
  /-- STOPPED, or RUNNING with the remaining ms (R58). -/
  timer : Option Nat
  rotationPending : Bool
  attach : Option Attach
  /-- A DETACH has been accepted and has not completed (R150, log 10). -/
  detaching : Bool
  deriving DecidableEq, Repr

/-! ## Upstream Port and Window Table -/

/-- Request classes (R4). -/
inductive RequestClass where
  | bad | log | track | pass
  deriving DecidableEq, Repr

/-- Why a request is stalled (R2). -/
inductive StallReason where
  | situation | queue
  deriving DecidableEq, Repr

/-- Port states (R2). The request of READ_PENDING and WRITE_PENDING stands in the hold queue. -/
inductive PortState where
  | idle
  | stalled (reason : StallReason) (request : MemRequest)
  | readPending
  | writePending
  deriving DecidableEq, Repr

/-- The data of a read's response (R3). -/
inductive ReadData where
  | word (data : WordData)
  | block (data : BlockData)
  deriving DecidableEq, Repr

/-- One upstream response: OKAY or ERROR, with the read data lines where R3 gives them. -/
structure Response where
  okay : Bool
  data : Option ReadData
  deriving DecidableEq, Repr

/-- The upstream port. `received` and `answers` are the model's own record of its traffic (log 5). -/
@[ext] structure UpstreamPort where
  state : PortState
  received : Nat
  answers : List Response
  deriving DecidableEq, Repr

/-- Window modes (R6). -/
inductive WindowMode where
  | track | pass
  deriving DecidableEq, Repr

/-- One window (R6). -/
structure Window where
  valid : Bool
  base : Word32
  limit : BitVec 33
  mode : WindowMode
  deriving DecidableEq, Repr

/-! ## Log Controller -/

/-- The log configuration (R18). -/
structure LogConfig where
  base : Word32
  slots : Nat
  deriving DecidableEq, Repr

/-- Standing of an anchor copy (R32). -/
inductive Standing where
  | unknown | valid | invalid
  deriving DecidableEq, Repr

/-- The two anchor copies. -/
inductive CopyName where
  | a | b
  deriving DecidableEq, Repr

/-- What the LC holds of one anchor copy (R32). -/
structure AnchorCopy where
  standing : Standing
  generation : Word32
  deriving DecidableEq, Repr

/-- What a reservation is for (R28). -/
inductive Purpose where
  | capture | marker
  deriving DecidableEq, Repr

/-- State of a reservation entry (R28). -/
inductive ReservationState where
  | pending | voiding | written
  deriving DecidableEq, Repr

/-- One entry of the reservation list (R28). `failure` is set when its write failed: a WRITTEN entry that carries it
is marked voided, and it is the condition reported for a failed marker (R31). -/
structure Reservation where
  slot : Nat
  sequence : Word32
  purpose : Purpose
  level : Nat
  serial : Word32
  state : ReservationState
  failure : Option MemFailure
  deriving DecidableEq, Repr

/-- The occasions of an anchor write (R34). -/
inductive AnchorOccasion where
  | attachKeep
  /-- ATTACH FORMAT, copy A, with the new session of R141. -/
  | formatA (session : Word32)
  | formatB
  | commit
  | openReclaim
  | rotateReclaim
  /-- ROTATE with a free slot: the marker's slot and sequence. -/
  | rotateMarker (slot : Nat) (sequence : Word32)
  | rotateFirst
  | rollback
  | discard
  | recovery
  deriving DecidableEq, Repr

/-- The LC's own writes (R30). -/
inductive LogWrite where
  | openHeader (slot : Nat)
  | voidHeader (slot : Nat)
  | anchor (occasion : AnchorOccasion)
  deriving DecidableEq, Repr

/-- The fields of an anchor (R34, 12.2). -/
structure Anchor where
  generation : Word32
  session : Word32
  slots : Word32
  tail : Word32
  tailSequence : Word32
  nextSerial : Word32
  deriving DecidableEq, Repr

/-- The attach read that is due, with what has been read (R139 to R141). -/
inductive AttachRead where
  | none
  | anchorA
  /-- Anchor B, with copy A if it was valid. -/
  | anchorB (a : Option Anchor)
  | tailHeader
  | tailPayload (header : BlockData)
  deriving DecidableEq, Repr

/-- The ring state of the Log Controller (R26). -/
@[ext] structure LogState where
  tail : Nat
  tailSequence : Word32
  head : Nat
  live : Nat
  durable : Nat
  nextSequence : Word32
  session : Word32
  nextSerial : Word32
  copyA : AnchorCopy
  copyB : AnchorCopy
  reservations : List Reservation
  writes : List LogWrite
  attachRead : AttachRead
  armed : Bool
  dead : Bool
  deriving DecidableEq, Repr

/-! ## Hold Queue -/

/-- The bytes of a held write (R95). -/
inductive WriteBody where
  | word (mask : BitVec 8) (data : WordData)
  | block (data : BlockData)
  deriving DecidableEq, Repr

/-- Capture states (R96). -/
inductive CaptureState where
  | notConsidered
  | waiting
  | depends (slot : Nat)
  | free
  deriving DecidableEq, Repr

/-- One hold entry (R95). `order` counts acceptances; its low 32 bits are the acceptance number (log 6). -/
structure HoldEntry where
  order : Nat
  addr : Addr
  body : WriteBody
  block : Addr
  cls : RequestClass
  stamp : Word32
  capture : CaptureState
  acknowledged : Bool
  issued : Bool
  deriving DecidableEq, Repr

/-- The pending read of the master path (R102). -/
structure PendingRead where
  addr : Addr
  isBlock : Bool
  cls : RequestClass
  deriving DecidableEq, Repr

/-- The hold queue, entries oldest first. -/
@[ext] structure HoldQueue where
  entries : List HoldEntry
  nextOrder : Nat
  read : Option PendingRead
  deriving DecidableEq, Repr

/-! ## Capture Filter and Capture Engine -/

/-- One valid entry of the capture filter (R62). -/
structure FilterEntry where
  block : Addr
  level : Nat
  way : Nat
  deriving DecidableEq, Repr

/-- States of a busy context (R75). -/
inductive ContextState where
  | orderWait | reading | writingPayload | writingHeader | written
  deriving DecidableEq, Repr

/-- A busy capture context (R74). `trigger` is the acceptance order of its trigger write; `bytes` the kept bytes. -/
structure Context where
  block : Addr
  slot : Nat
  level : Nat
  serial : Word32
  trigger : Nat
  state : ContextState
  failure : Option MemFailure
  bytes : BlockData
  deriving DecidableEq, Repr

/-- The capture engine: four contexts, none where free (R74), and the stall episode (R91). -/
@[ext] structure CaptureEngine where
  contexts : List (Option Context)
  episode : Bool
  deriving DecidableEq, Repr

/-! ## Restore Engine -/

/-- Stages (R113). -/
inductive Stage where
  | idle | settling | scanning | replaying | anchoring | halted
  deriving DecidableEq, Repr

/-- Purposes (R113). -/
inductive RestorePurpose where
  | rollback | recovery | discard
  deriving DecidableEq, Repr

/-- Origins of a rollback (R113). -/
inductive RollbackOrigin where
  | command | fault
  deriving DecidableEq, Repr

/-- Where the handling of the slot at the cursor stands (R122, R124, R143, R145). -/
inductive Handling where
  | header
  | payload (header : BlockData)
  | restore (addr : Addr) (data : BlockData)
  deriving DecidableEq, Repr

/-- The restore engine (R113, R142). -/
@[ext] structure RestoreEngine where
  stage : Stage
  purpose : RestorePurpose
  origin : RollbackOrigin
  fromFreeze : Bool
  target : Nat
  targetSerial : Word32
  cursor : Nat
  restored : Word32
  abortRequested : Bool
  haltCondition : Condition
  rangeBreak : Condition
  /-- The resume stage is SCANNING (true) or REPLAYING (false). -/
  resumeScanning : Bool
  scanned : Nat
  opens : Nat
  highest : Word32
  handling : Handling
  /-- Levels a DISCARD popped, for the DISCARDED event after its anchor (R132). -/
  popped : Nat
  deriving DecidableEq, Repr

/-! ## Downstream Port -/

/-- What an anchor write in flight carries. -/
structure AnchorJob where
  occasion : AnchorOccasion
  copy : CopyName
  anchor : Anchor
  deriving DecidableEq, Repr

/-- The three requests of a capture (R75). -/
inductive CaptureStep where
  | read | payload | header
  deriving DecidableEq, Repr

/-- Whose request the port carries, in the terms of the requester's own rules. -/
inductive Owner where
  | lcOpen (slot : Nat)
  | lcVoid (slot : Nat)
  | lcAnchor (job : AnchorJob)
  | lcReadA
  | lcReadB (a : Option Anchor)
  | lcTailHeader
  | lcTailPayload (header : BlockData)
  | re
  | ce (context : Nat) (part : CaptureStep)
  | masterWrite (order : Nat)
  | masterRead
  deriving DecidableEq, Repr

/-- The fields of an ACTIVE port (R155). -/
structure ActiveRequest where
  owner : Owner
  request : MemRequest
  failures : Nat
  limit : Nat
  last : Option MemFailure
  deriving DecidableEq, Repr

/-- The downstream port: IDLE (none) or ACTIVE, the fairness count (R160), and `calm` (log 17). -/
@[ext] structure DownstreamPort where
  port : Option ActiveRequest
  fairness : Nat
  calm : Bool
  deriving DecidableEq, Repr

/-! ## Events, link, options -/

/-- Event kinds (11.4). -/
inductive EventKind where
  | attached | attachFailed | recovered | recoveryHalted | opened | openFailed | committed | rotated | rolledBack
  | rollbackHalted | epochBroken | logFull | logHigh | writeLost | faultTaken | faultDropped | fenced | discarded
  | detached | captureFailed
  deriving DecidableEq, Repr

/-- One event record (11.4). -/
structure EventRecord where
  kind : EventKind
  level : Byte
  condition : Condition
  serial : Word32
  argument : Word32
  deriving DecidableEq, Repr

/-- The event queue, oldest first (R183). -/
@[ext] structure EventQueue where
  records : List EventRecord
  lost : Nat
  deriving DecidableEq, Repr

/-- Result codes (R178). -/
inductive ResultCode where
  | ok | accepted | busy | state | arg | depth | space | broken | empty | frame
  deriving DecidableEq, Repr

/-- The result buffer (R177); its length field is the length of `data`. -/
structure ResultBuffer where
  code : ResultCode
  data : List Byte
  deriving DecidableEq, Repr

/-- The management link: the result buffer, the buffer as it stood when the frame in progress began, and the level of CS
(R175). `unframed` counts the rises of CS that ended no frame; the free SDO bytes are taken from it (log 31). -/
@[ext] structure Link where
  result : ResultBuffer
  frame : Option ResultBuffer
  csLow : Bool
  unframed : Nat
  deriving DecidableEq, Repr

/-- Write modes (R98). -/
inductive WriteMode where
  | strict | posted
  deriving DecidableEq, Repr

/-- Log-full policies (R93). -/
inductive LogFullPolicy where
  | stall | break_
  deriving DecidableEq, Repr

/-- Fault policies (R165). -/
inductive FaultPolicy where
  | ignore | freeze | inner | all
  deriving DecidableEq, Repr

/-- The options of SETOPT (R180). -/
structure Options where
  writeMode : WriteMode
  retryLimit : Nat
  logFull : LogFullPolicy
  highWater : Nat
  faultPolicy : FaultPolicy
  rotationPeriod : Nat
  deriving DecidableEq, Repr

/-! ## The whole state -/

/-- The NC-46 and the queue of commands that wait to be taken, first in first out. -/
@[ext]
structure State where
  /-- RESETn is low. -/
  resetLow : Bool
  up : UpstreamPort
  windows : List Window
  log : LogConfig
  lc : LogState
  hq : HoldQueue
  cf : List FilterEntry
  ce : CaptureEngine
  oc : Controller
  re : RestoreEngine
  dp : DownstreamPort
  eq : EventQueue
  link : Link
  opts : Options
  pending : List Instr
  deriving DecidableEq, Repr

/-! ## Reset values, block by block -/

def UpstreamPort.reset : UpstreamPort := { state := .idle, received := 0, answers := [] }

def Window.reset : Window := { valid := false, base := 0, limit := 0, mode := .pass }

def LogConfig.reset : LogConfig := { base := 0, slots := 0 }

def AnchorCopy.reset : AnchorCopy := { standing := .unknown, generation := 0 }

/-- The values of R26. -/
def LogState.reset : LogState :=
  { tail := 0, tailSequence := 0, head := 0, live := 0, durable := 0, nextSequence := 0, session := 0, nextSerial := 0,
    copyA := AnchorCopy.reset, copyB := AnchorCopy.reset, reservations := [], writes := [], attachRead := .none,
    armed := true, dead := false }

def HoldQueue.reset : HoldQueue := { entries := [], nextOrder := 0, read := none }

def CaptureEngine.reset : CaptureEngine :=
  { contexts := List.replicate Config.contextCount none, episode := false }

def Controller.reset : Controller :=
  { mode := .offline, op := .idle, phase := .none, stack := [], stamp := 0, successor := none, bar := none,
    latch := false, faultLine := false, fence := .none, timer := none, rotationPending := false, attach := none,
    detaching := false }

/-- The values of R113 and R142. -/
def RestoreEngine.reset : RestoreEngine :=
  { stage := .idle, purpose := .rollback, origin := .command, fromFreeze := false, target := 1, targetSerial := 0,
    cursor := 0, restored := 0, abortRequested := false, haltCondition := .none, rangeBreak := .none,
    resumeScanning := true, scanned := 0, opens := 0, highest := 0, handling := .header, popped := 0 }

def DownstreamPort.reset : DownstreamPort := { port := none, fairness := 0, calm := true }

def EventQueue.reset : EventQueue := { records := [], lost := 0 }

def ResultBuffer.reset : ResultBuffer := { code := .ok, data := [] }

/-- CS is high (log 3). -/
def Link.reset : Link := { result := ResultBuffer.reset, frame := none, csLow := false, unframed := 0 }

/-- The reset values of R180. -/
def Options.reset : Options :=
  { writeMode := .strict, retryLimit := 4, logFull := .stall, highWater := 0, faultPolicy := .all, rotationPeriod := 0 }

/-- The part right after reset, RESETn released with the FAULT line inactive and CS high (log 3), no command waiting. -/
def State.reset : State :=
  { resetLow := false, up := UpstreamPort.reset, windows := List.replicate Config.windowCount Window.reset,
    log := LogConfig.reset, lc := LogState.reset, hq := HoldQueue.reset, cf := [], ce := CaptureEngine.reset,
    oc := Controller.reset, re := RestoreEngine.reset, dp := DownstreamPort.reset, eq := EventQueue.reset,
    link := Link.reset, opts := Options.reset, pending := [] }

end Sys2Proof.Machine
end

