-- ==== Sys2Proof/Machine/Filter.lean ====
section
/-! DEFINITION. The capture filter (chapter 4): the list of valid entries, oldest insertion first. The age of an entry
is its place among the entries of its set (R62). -/

namespace Sys2Proof.Machine

/-- The set of a block (R62). -/
def filterSet (block : Addr) : Nat := block.toNat / Config.blockBytes % Config.filterSets

/-- The lookup of R64. -/
def filterHit (cf : List FilterEntry) (block : Addr) (level : Nat) : Bool :=
  cf.any fun e => decide (e.block = block) && decide (e.level = level)

/-- The valid entries of a set, oldest first. -/
def setEntries (cf : List FilterEntry) (set : Nat) : List FilterEntry :=
  cf.filter fun e => decide (filterSet e.block = set)

/-- The lowest-numbered way of the set that no entry holds (R65). -/
def freeWay (cf : List FilterEntry) (set : Nat) : Option Nat :=
  (List.range Config.filterWays).find? fun w => (setEntries cf set).all fun e => decide (e.way ≠ w)

/-- The entry a full set gives up: lowest level, then oldest (R66). -/
def victim : List FilterEntry → Option FilterEntry
  | [] => none
  | e :: rest =>
    match victim rest with
    | none => some e
    | some v => if v.level < e.level then some v else some e

/-- The insertion of R65: overwrite the block's own entry, else take a free way, else evict (R66). The new entry is the
youngest of its set. -/
def filterInsert (cf : List FilterEntry) (block : Addr) (level : Nat) : List FilterEntry :=
  match cf.find? fun e => decide (e.block = block) with
  | some old => (cf.filter fun e => decide (e.block ≠ block)) ++ [{ block, level, way := old.way }]
  | none =>
    match freeWay cf (filterSet block) with
    | some way => cf ++ [{ block, level, way }]
    | none =>
      match victim (setEntries cf (filterSet block)) with
      | some v => (cf.filter fun e => decide (e.block ≠ v.block)) ++ [{ block, level, way := v.way }]
      | none => cf

/-- The relabel of level `k` as level `k - 1` (R68). -/
def filterRelabel (cf : List FilterEntry) (k : Nat) : List FilterEntry :=
  cf.map fun e => if e.level = k then { e with level := k - 1 } else e

/-- The invalidation of one level (R70). -/
def filterInvalidate (cf : List FilterEntry) (m : Nat) : List FilterEntry := cf.filter fun e => decide (e.level ≠ m)

/-- The removal of one entry after a STRICT capture failure (R71). -/
def filterRemove (cf : List FilterEntry) (block : Addr) (level : Nat) : List FilterEntry :=
  cf.filter fun e => !(decide (e.block = block) && decide (e.level = level))

end Sys2Proof.Machine
end

