-- ==== Sys2Proof/Machine/Flags.lean ====
section
/-! DEFINITION. The codes and flag bytes the part shows: condition, event, result and state codes (12.3, R181), the
status and level blocks, the event record, ATTN, and the bytes of a result frame. -/

namespace Sys2Proof.Machine

/-! ## Big-endian fields of the link (R177) -/

/-- A 4-byte field, most significant byte first. -/
def bigEndian (w : Word32) : List Byte :=
  [w.extractLsb' 24 8, w.extractLsb' 16 8, w.extractLsb' 8 8, w.extractLsb' 0 8]

/-- A natural number as a 4-byte field. -/
def bigEndianNat (n : Nat) : List Byte := bigEndian (BitVec.ofNat 32 n)

/-- A flag as a byte 0 or 1 (R181). -/
def flagByte (b : Bool) : Byte := if b then 1 else 0

/-! ## Conditions -/

/-- The condition of a request that failed after its retries: the last response decides (R156). -/
def failureCondition : MemFailure → Condition
  | .busy => .memBusy
  | .derr => .memError

/-- Condition codes (12.3, Event record). -/
def Condition.code : Condition → Byte
  | .none => 0x00
  | .memBusy => 0x01
  | .memError => 0x02
  | .badSignature => 0x03
  | .badCheck => 0x04
  | .badSession => 0x05
  | .badSequence => 0x06
  | .badSerial => 0x07
  | .badAddress => 0x08
  | .aborted => 0x09
  | .noSpace => 0x0A
  | .noAnchor => 0x0B
  | .logDead => 0x0C

/-- Event kind codes (12.3, Event record). -/
def EventKind.code : EventKind → Byte
  | .attached => 0x01
  | .attachFailed => 0x02
  | .recovered => 0x03
  | .recoveryHalted => 0x04
  | .opened => 0x05
  | .openFailed => 0x06
  | .committed => 0x07
  | .rotated => 0x08
  | .rolledBack => 0x09
  | .rollbackHalted => 0x0A
  | .epochBroken => 0x0B
  | .logFull => 0x0C
  | .logHigh => 0x0D
  | .writeLost => 0x0E
  | .faultTaken => 0x0F
  | .faultDropped => 0x10
  | .fenced => 0x11
  | .discarded => 0x12
  | .detached => 0x13
  | .captureFailed => 0x14

/-- Result codes (12.3, Result frame). -/
def ResultCode.code : ResultCode → Byte
  | .ok => 0x00
  | .accepted => 0x01
  | .busy => 0x02
  | .state => 0x03
  | .arg => 0x04
  | .depth => 0x05
  | .space => 0x06
  | .broken => 0x07
  | .empty => 0x08
  | .frame => 0x09

/-- Mode codes (R181). -/
def Mode.code : Mode → Byte
  | .offline => 0
  | .attaching => 1
  | .suspect => 2
  | .recovering => 3
  | .online => 4
  | .fenced => 5

/-- Operation state codes (R181). -/
def OpState.code : OpState → Byte
  | .idle => 0
  | .opening => 1
  | .committing => 2
  | .rotating => 3
  | .rolling => 4
  | .halted => 5
  | .detaching => 6

/-- Fence reason codes (R169, R181). -/
def FenceReason.code : FenceReason → Byte
  | .none => 0
  | .frozen => 1
  | .brokenFault => 2
  | .logDead => 3

/-- Restore stage codes (R181). -/
def Stage.code : Stage → Byte
  | .idle => 0
  | .settling => 1
  | .scanning => 2
  | .replaying => 3
  | .anchoring => 4
  | .halted => 5

/-- Write mode codes (R180, R181). -/
def WriteMode.code : WriteMode → Byte
  | .strict => 0
  | .posted => 1

/-! ## What STATUS, LEVEL and EVENT return -/

/-- The slot at `distance` from tail in ring order (R26). -/
def LogState.slotAt (lc : LogState) (n distance : Nat) : Nat := (lc.tail + distance) % n

/-- The durable mark as a slot number (R26). -/
def State.durableSlot (s : State) : Nat := s.lc.slotAt s.log.slots s.lc.durable

/-- The number of busy contexts (R74). -/
def CaptureEngine.busyCount (ce : CaptureEngine) : Nat := (ce.contexts.filter Option.isSome).length

/-- The depth of the epoch stack (R40). -/
def Controller.depth (oc : Controller) : Nat := oc.stack.length

/-- The status block (R181, 12.3). -/
def State.statusBlock (s : State) : List Byte :=
  [s.oc.mode.code, s.oc.op.code, BitVec.ofNat 8 s.oc.depth, s.oc.fence.code, s.re.stage.code,
   BitVec.ofNat 8 s.ce.busyCount, BitVec.ofNat 8 s.hq.entries.length, BitVec.ofNat 8 s.eq.lost,
   BitVec.ofNat 8 s.eq.records.length, flagByte s.oc.latch, flagByte s.oc.rotationPending, s.opts.writeMode.code]
  ++ bigEndianNat s.lc.tail ++ bigEndianNat s.lc.head ++ bigEndianNat s.durableSlot ++ bigEndianNat s.lc.live
  ++ bigEndianNat s.re.cursor

/-- The flags byte of the level block: bit 0 marker durable, bit 1 broken (12.3). -/
def Level.flags (l : Level) : Byte := (if l.durable then 1 else 0) ||| (if l.broken then 2 else 0)

/-- The level block (R182, 12.3); an absent start slot reads FFFFFFFFH. -/
def Level.block (l : Level) : List Byte :=
  bigEndian l.serial ++ (match l.start with | some slot => bigEndianNat slot | none => bigEndian 0xFFFFFFFF#32)
  ++ bigEndian l.captures ++ [l.flags]

/-- The event record as EVENT returns it (R185, 12.3). -/
def EventRecord.bytes (e : EventRecord) : List Byte :=
  [e.kind.code, e.level, e.condition.code, 0] ++ bigEndian e.serial ++ bigEndian e.argument

/-! ## Outputs -/

/-- ATTN is active while records are queued, and inactive while RESETn is low (R186). -/
def State.attn (s : State) : Bool := !s.resetLow && !s.eq.records.isEmpty

/-- Byte `i` that a frame shifts out of the buffer it began with (R177). -/
def ResultBuffer.shiftOut (r : ResultBuffer) : Nat → Byte
  | 0 => r.code.code
  | 1 => BitVec.ofNat 8 r.data.length
  | i + 2 => r.data.getD i 0

/-- SDO during byte `i` since CS fell: undriven (none) while CS is high; while it is low the buffer the frame in
progress began with, and with no frame a free byte (R175, R177, log 31). -/
def State.sdo (s : State) (i : Nat) : Option Byte :=
  match s.link.frame with
  | some buffer => some (buffer.shiftOut i)
  | none => if s.link.csLow then some (Config.unframedByte s.link.unframed i) else none

end Sys2Proof.Machine
end

