-- ==== Sys2Proof/Machine/Records.lean ====
section
/-! DEFINITION. The formats of the log area (12.1, 12.2): the CRC-32, record headers, anchors, the places of slots, and
the tests a reader makes on them (R22, R33, R189). -/

namespace Sys2Proof.Machine

/-! ## The check word (R188) -/

/-- One bit into the CRC-32 remainder, reflected form. -/
def crcBit (r : Word32) (b : Bool) : Word32 :=
  if r.getLsbD 0 != b then (r >>> 1) ^^^ Config.crcPolynomial else r >>> 1

/-- The bits of `d` from bit `from_`, `count` of them, least significant first: memory order of a little-endian field.
-/
def bitsFrom (d : BlockData) (from_ : Nat) : Nat → List Bool
  | 0 => []
  | count + 1 => d.getLsbD from_ :: bitsFrom d (from_ + 1) count

/-- The CRC-32 of a bit sequence. -/
def crc32 (bits : List Bool) : Word32 := bits.foldl crcBit 0xFFFFFFFF#32 ^^^ 0xFFFFFFFF#32

/-- The header bits every check word covers: bytes 0 to 23, then 28 to 63. -/
def headerBits (h : BlockData) : List Bool := bitsFrom h 0 192 ++ bitsFrom h 224 288

/-- The check word of an OPEN or VOID header. -/
def headerCheck (h : BlockData) : Word32 := crc32 (headerBits h)

/-- The check word of an UNDO header over its payload. -/
def undoCheck (h payload : BlockData) : Word32 := crc32 (headerBits h ++ bitsFrom payload 0 512)

/-- The check word of an anchor: bytes 0 to 27, then 32 to 63. -/
def anchorCheck (a : BlockData) : Word32 := crc32 (bitsFrom a 0 224 ++ bitsFrom a 256 256)

/-! ## Record headers -/

/-- Record kinds (R20). -/
inductive RecordKind where
  | undo | open_ | void
  deriving DecidableEq, Repr

/-- Kind bytes (12.2). -/
def RecordKind.code : RecordKind → Byte
  | .undo => 0x01
  | .open_ => 0x02
  | .void => 0x03

/-- The fields of a header that vary (R20). -/
structure RecordHeader where
  kind : RecordKind
  level : Byte
  session : Word32
  sequence : Word32
  serial : Word32
  blockAddr : Word32
  deriving DecidableEq, Repr

/-- A header with its check word, in the layout of 12.2 (little-endian: offset 0 is the least significant byte). -/
def RecordHeader.layout (h : RecordHeader) (check : Word32) : BlockData :=
  (0 : BitVec 288) ++ check ++ h.blockAddr ++ h.serial ++ h.sequence ++ h.session ++ (0 : Byte) ++ Config.recordFormat
    ++ h.level ++ h.kind.code ++ Config.recordSignature

/-- The header block of an OPEN or VOID record (R20, R188). -/
def RecordHeader.encode (h : RecordHeader) : BlockData := h.layout (headerCheck (h.layout 0))

/-- The header block of an UNDO record over its payload (R20, R85, R188). -/
def RecordHeader.encodeUndo (h : RecordHeader) (payload : BlockData) : BlockData :=
  h.layout (undoCheck (h.layout 0) payload)

/-! Fields of a header block as read (R189). -/

def headerSignature (h : BlockData) : Word32 := h.extractLsb' 0 32
def headerKindByte (h : BlockData) : Byte := h.extractLsb' 32 8
def headerFormat (h : BlockData) : Byte := h.extractLsb' 48 8
def headerSession (h : BlockData) : Word32 := h.extractLsb' 64 32
def headerSequence (h : BlockData) : Word32 := h.extractLsb' 96 32
def headerSerial (h : BlockData) : Word32 := h.extractLsb' 128 32
def headerBlockAddr (h : BlockData) : Word32 := h.extractLsb' 160 32
def headerCheckWord (h : BlockData) : Word32 := h.extractLsb' 192 32

/-- The kind of a header block that passes the signature test (R22 condition 1, R189). -/
def headerKind (h : BlockData) : Option RecordKind :=
  if headerSignature h = Config.recordSignature ∧ headerFormat h = Config.recordFormat then
    if headerKindByte h = RecordKind.undo.code then some .undo
    else if headerKindByte h = RecordKind.open_.code then some .open_
    else if headerKindByte h = RecordKind.void.code then some .void
    else none
  else none

/-! ## Places in the log area (R18) -/

/-- One past the last byte of the log area. -/
def LogConfig.areaEnd (g : LogConfig) : Nat := g.base.toNat + Config.slotBytes + g.slots * Config.slotBytes

/-- The address lies in the log area; while N is 0 the area is empty. -/
def LogConfig.contains (g : LogConfig) (a : Addr) : Bool :=
  g.slots != 0 && decide (g.base.toNat ≤ a.toNat) && decide (a.toNat < g.areaEnd)

/-- The block of an anchor copy. -/
def LogConfig.anchorAddr (g : LogConfig) : CopyName → Addr
  | .a => g.base
  | .b => g.base + 0x40#32

/-- The header block of slot `slot`. -/
def LogConfig.headerAddr (g : LogConfig) (slot : Nat) : Addr :=
  g.base + BitVec.ofNat 32 (Config.slotBytes + slot * Config.slotBytes)

/-- The payload block of slot `slot`. -/
def LogConfig.payloadAddr (g : LogConfig) (slot : Nat) : Addr := g.headerAddr slot + 0x40#32

/-! ## Ring order (00_scope.md "Ring positions") -/

/-- The distance of `slot` from `tail`, modulo `n`. -/
def ringDistance (n tail slot : Nat) : Nat := if n = 0 then 0 else (slot + n - tail % n) % n

/-- The next slot in ring order. -/
def nextSlot (n slot : Nat) : Nat := (slot + 1) % n

/-- The slot before in ring order. -/
def prevSlot (n slot : Nat) : Nat := (slot + n - 1) % n

/-! ## The ring test (R22) -/

/-- The check-word test of a record of kind `k`; the payload enters for UNDO alone. -/
def checkWordOk (k : RecordKind) (header payload : BlockData) : Bool :=
  headerCheckWord header =
    match k with
    | .undo => undoCheck header payload
    | .open_ => headerCheck header
    | .void => headerCheck header

/-- The sequence a valid record at `slot` carries. -/
def LogState.sequenceOf (lc : LogState) (n slot : Nat) : Word32 :=
  lc.tailSequence + BitVec.ofNat 32 (ringDistance n lc.tail slot)

/-- The outcome of a ring test: the record's kind, or the condition of the first test that fails. -/
inductive RingTest where
  | passes (kind : RecordKind)
  | fails (c : Condition)
  deriving DecidableEq, Repr

/-- The ring test of R22 on the record read at `slot`. -/
def ringTest (lc : LogState) (n slot : Nat) (header payload : BlockData) : RingTest :=
  match headerKind header with
  | none => .fails .badSignature
  | some k =>
    if !checkWordOk k header payload then .fails .badCheck
    else if headerSession header ≠ lc.session then .fails .badSession
    else if headerSequence header ≠ lc.sequenceOf n slot then .fails .badSequence
    else .passes k

/-! ## Anchors (R33, R34, 12.2) -/

/-- An anchor block with the check word `check`. -/
def Anchor.layout (a : Anchor) (check : Word32) : BlockData :=
  (0 : BitVec 256) ++ check ++ a.nextSerial ++ a.tailSequence ++ a.tail ++ a.slots ++ a.session ++ a.generation
    ++ Config.anchorSignature

/-- The block of an anchor. -/
def Anchor.encode (a : Anchor) : BlockData := a.layout (anchorCheck (a.layout 0))

/-- The fields of an anchor block as read. -/
def anchorFields (d : BlockData) : Anchor :=
  { generation := d.extractLsb' 32 32, session := d.extractLsb' 64 32, slots := d.extractLsb' 96 32,
    tail := d.extractLsb' 128 32, tailSequence := d.extractLsb' 160 32, nextSerial := d.extractLsb' 192 32 }

/-- The check word of an anchor block as read. -/
def anchorCheckWord (d : BlockData) : Word32 := d.extractLsb' 224 32

/-- A copy read from the log area, if it is a valid anchor (R33). -/
def readAnchor (n : Nat) (d : BlockData) : Option Anchor :=
  if d.extractLsb' 0 32 = Config.anchorSignature ∧ anchorCheckWord d = anchorCheck d ∧ (anchorFields d).slots.toNat = n
      ∧ (anchorFields d).tail.toNat < n then
    some (anchorFields d)
  else none

/-- Generation `x` is newer than `y`: the difference lies between 1 and 7FFFFFFFH (R33). -/
def newerGeneration (x y : Word32) : Bool := decide (1 ≤ (x - y).toNat) && decide ((x - y).toNat ≤ 0x7FFFFFFF)

/-- Of two VALID copies, A is the newer (R33). Equal generations take A; a difference of 80000000H is free (log 8). -/
def takesA (genA genB : Word32) : Bool :=
  if genA = genB ∨ newerGeneration genA genB then true
  else if newerGeneration genB genA then false
  else Config.antipodalTakesA genA genB

/-- A new session (R23). -/
def newSession (w : Word32) : Word32 := if w = 0xFFFFFFFF#32 then 1 else w + 1

end Sys2Proof.Machine
end

