-- ==== Sys2Proof/Machine/Operands.lean ====
section
/-! DEFINITION. How a request's address is read: alignment, blocks, windows, classes, and the treatment the situation
gives each class (chapter 1). -/

namespace Sys2Proof.Machine

/-- The block of a request: its address rounded down to a multiple of 40H (R1). -/
def blockOf (a : Addr) : Addr := a &&& 0xFFFFFFC0#32

/-- Alignment of a request (R1). -/
def requestAligned (r : MemRequest) : Bool :=
  if r.isBlock then decide (r.addr.toNat % Config.blockBytes = 0) else decide (r.addr.toNat % 8 = 0)

/-- A request is BAD when misaligned, or a WORD write with no mask position set (R4, R5). -/
def requestBad (r : MemRequest) : Bool :=
  match r with
  | .writeWord _ mask _ => !requestAligned r || decide (mask = 0)
  | .readWord _ => !requestAligned r
  | .readBlock _ => !requestAligned r
  | .writeBlock _ _ => !requestAligned r

/-- The address lies in the window (R6). -/
def Window.contains (w : Window) (a : Addr) : Bool :=
  w.valid && decide (w.base.toNat ≤ a.toNat) && decide (a.toNat < w.limit.toNat)

/-- The address lies in a valid TRACK window. -/
def State.tracked (s : State) (a : Addr) : Bool := s.windows.any fun w => w.contains a && decide (w.mode = .track)

/-- The class of a request, tested in the order of R4. -/
def State.classify (s : State) (r : MemRequest) : RequestClass :=
  if requestBad r then .bad
  else if s.log.contains (blockOf r.addr) then .log
  else if s.tracked (blockOf r.addr) then .track
  else .pass

/-- What the situation does with a request that is not BAD (R12). `take` is "pass" for a read and "held" for a write. -/
inductive Treatment where
  | take | stall | refuse
  deriving DecidableEq, Repr

/-- The treatment of a TRACK request (R12). -/
def trackTreatment (mode : Mode) (op : OpState) : Treatment :=
  match mode with
  | .offline => .take
  | .attaching => .stall
  | .suspect => .refuse
  | .recovering => .refuse
  | .online =>
    match op with
    | .rolling => .stall
    | .halted => .refuse
    | .idle => .take
    | .opening => .take
    | .committing => .take
    | .rotating => .take
    | .detaching => .take
  | .fenced => .refuse

/-- The treatment table of R12, with R5 for BAD. -/
def treatment (mode : Mode) (op : OpState) (cls : RequestClass) (isWrite : Bool) : Treatment :=
  match cls with
  | .bad => .refuse
  | .pass => .take
  | .log => if isWrite && mode != .offline then .refuse else .take
  | .track => trackTreatment mode op

/-- Two ranges [a, b) and [c, d) share no byte. -/
def rangesApart (a b c d : Nat) : Bool := decide (b ≤ c) || decide (d ≤ a)

/-- The exclusive limit a SETWIN argument gives: 0 stands for 100000000H (R7). -/
def limitOf (limit : Word32) : Nat := if limit = 0 then Config.addressEnd else limit.toNat

/-- The range shares no byte with any valid window but the one at `index` (R7). -/
def State.apartFromWindows (s : State) (index : Option Nat) (lo hi : Nat) : Bool :=
  (s.windows.zipIdx).all fun p =>
    !p.1.valid || decide (index = some p.2) || rangesApart lo hi p.1.base.toNat p.1.limit.toNat

/-- The range shares no byte with the log area, if the log is configured (R7). -/
def State.apartFromLog (s : State) (lo hi : Nat) : Bool :=
  decide (s.log.slots = 0) || rangesApart lo hi s.log.base.toNat s.log.areaEnd

end Sys2Proof.Machine
end

