-- ==== Sys2Proof/Machine/Ops.lean ====
section
/-! DEFINITION. The operations the meanings share: raising events, answering the master, accepting, discarding and
restamping held writes, eligibility and standing requests, the re-decision of a stalled request, and the three forms of
a meaning: a claim, a link command, a query. -/

namespace Sys2Proof.Machine

/-- The outcome type of a meaning. -/
abbrev Out := Host.Outcome State Fault Refusal

/-! ## Events (R183) -/

/-- The arrival of a record: appended, or dropped and counted when 16 are queued. -/
def EventQueue.push (q : EventQueue) (e : EventRecord) : EventQueue :=
  if q.records.length < Config.eventCapacity then { q with records := q.records ++ [e] }
  else { q with lost := min Config.lostLimit (q.lost + 1) }

/-- A block raises an event. -/
def State.raise (s : State) (kind : EventKind) (level : Nat) (c : Condition) (serial argument : Word32) : State :=
  { s with eq := s.eq.push { kind, level := BitVec.ofNat 8 level, condition := c, serial, argument } }

/-! ## The epoch stack, read (R40, R44, R45) -/

/-- Level `k` of the stack, level 1 the outermost. -/
def Controller.level (oc : Controller) (k : Nat) : Option Level := if k = 0 then none else oc.stack[k - 1]?

/-- The serial of level `k`, 0 where there is none. -/
def Controller.serialAt (oc : Controller) (k : Nat) : Word32 :=
  match oc.level k with
  | some l => l.serial
  | none => 0

/-- The innermost serial, or 0 at depth 0. -/
def Controller.innermost (oc : Controller) : Word32 := oc.serialAt oc.depth

/-- The level a stamp belongs to (R45): none for 0; a successor serial belongs to level 1. -/
def Controller.levelOf (oc : Controller) (stamp : Word32) : Option Nat :=
  if stamp = 0 then none
  else
    match oc.stack.findIdx? fun l => decide (l.serial = stamp) with
    | some i => some (i + 1)
    | none =>
      match oc.successor with
      | some x => if x.serial = stamp then some 1 else none
      | none => none

/-- Writes of the stamp may be considered for capture: its level's marker is durable, and it is no successor serial
whose rotation has not replaced level 1 (R45). -/
def Controller.considerable (oc : Controller) (stamp : Word32) : Bool :=
  oc.stack.any fun l => decide (l.serial = stamp) && l.durable

/-- Some level from `j` to the depth is broken (R115). -/
def Controller.brokenFrom (oc : Controller) (j : Nat) : Bool := (oc.stack.drop (j - 1)).any (·.broken)

/-! ## The upstream port (R2, R3) -/

/-- The response to the request the port holds: the port returns to IDLE. A port that holds none gives no response. -/
def UpstreamPort.answer (up : UpstreamPort) (r : Response) : UpstreamPort :=
  match up.state with
  | .idle => up
  | .stalled _ _ => { up with state := .idle, answers := up.answers ++ [r] }
  | .readPending => { up with state := .idle, answers := up.answers ++ [r] }
  | .writePending => { up with state := .idle, answers := up.answers ++ [r] }

/-- OKAY without data: a write (R3). -/
def Response.okayWrite : Response := { okay := true, data := none }

/-- ERROR without data: a write, or any request refused (R3). -/
def Response.error : Response := { okay := false, data := none }

/-- The port answers. -/
def State.answer (s : State) (r : Response) : State := { s with up := s.up.answer r }

/-! ## The hold queue (chapter 6) -/

/-- HELD: not yet issued. -/
def HoldEntry.held (e : HoldEntry) : Bool := !e.issued

/-- The acceptance number (R95). -/
def HoldEntry.acceptance (e : HoldEntry) : Word32 := BitVec.ofNat 32 e.order

/-- The downstream request of an entry (R103); address, mask and data as held (R153). -/
def HoldEntry.request (e : HoldEntry) : MemRequest :=
  match e.body with
  | .word mask data => .writeWord e.addr mask data
  | .block data => .writeBlock e.addr data

/-- The body of a write request. -/
def writeBody : MemRequest → WriteBody
  | .writeWord _ mask data => .word mask data
  | .writeBlock _ data => .block data
  | .readWord _ => .word 0 0
  | .readBlock _ => .word 0 0

/-- The stamp a write is given at acceptance (R13). -/
def State.stampFor (s : State) (cls : RequestClass) : Word32 :=
  if cls = .track ∧ s.oc.mode = .online then s.oc.stamp else 0

/-- A held write finds an entry it may use (R97). -/
def State.canHold (s : State) : Bool :=
  match s.opts.writeMode with
  | .posted => decide (s.hq.entries.length < Config.holdEntries)
  | .strict => decide (s.hq.entries.length = 0)

/-- The new entry of an accepted write (R13, R95, R96). -/
def State.newEntry (s : State) (r : MemRequest) (cls : RequestClass) : HoldEntry :=
  { order := s.hq.nextOrder, addr := r.addr, body := writeBody r, block := blockOf r.addr, cls,
    stamp := s.stampFor cls,
    capture := if s.stampFor cls = 0 then .free else .notConsidered,
    acknowledged := decide (s.opts.writeMode = .posted), issued := false }

/-- The write is taken into the hold queue: POSTED is answered OKAY at once, STRICT waits (R13, R97). -/
def State.hold (s : State) (r : MemRequest) (cls : RequestClass) : State :=
  let t := { s with hq := { s.hq with entries := s.hq.entries ++ [s.newEntry r cls], nextOrder := s.hq.nextOrder + 1 } }
  match s.opts.writeMode with
  | .posted => t.answer .okayWrite
  | .strict => { t with up := { t.up with state := .writePending } }

/-- A discard (R107) of the HELD entries `p` picks: STRICT ones are answered ERROR. -/
def State.discardHeld (s : State) (p : HoldEntry → Bool) : State :=
  let gone := s.hq.entries.filter fun e => e.held && p e
  let t := { s with hq := { s.hq with entries := s.hq.entries.filter fun e => !(e.held && p e) } }
  if gone.any (fun e => !e.acknowledged) then t.answer .error else t

/-- How many acknowledged entries such a discard drops (R107). -/
def State.discardCount (s : State) (p : HoldEntry → Bool) : Nat :=
  (s.hq.entries.filter fun e => e.held && p e && e.acknowledged).length

/-- A restamp (R99): entries stamped `old` take `new`; to 0, an entry not yet considered or waiting becomes FREE. -/
def HoldEntry.restamp (e : HoldEntry) (old new : Word32) : HoldEntry :=
  if e.stamp = old then
    { e with
      stamp := new
      capture := if new = 0 ∧ (e.capture = .notConsidered ∨ e.capture = .waiting) then .free else e.capture }
  else e

/-- The Operation Controller orders a restamp. -/
def State.restamp (s : State) (old new : Word32) : State :=
  { s with hq := { s.hq with entries := s.hq.entries.map fun e => e.restamp old new } }

/-- A held entry of class TRACK. -/
def HoldEntry.isTrack (e : HoldEntry) : Bool := decide (e.cls = .track)

/-- The hold queue holds a TRACK entry, HELD or ISSUED (R111, R119). -/
def HoldQueue.holdsTrack (q : HoldQueue) : Bool := q.entries.any (·.isTrack)

/-! ## Issue order (R100 to R103) -/

/-- A TRACK entry is kept from issue by the freeze or by a detach (R101 conditions 4 and 5, R110). -/
def State.trackBarred (s : State) : Bool :=
  s.oc.detaching || decide (s.oc.op = .detaching)
    || (decide (s.oc.mode = .fenced) && decide (s.oc.fence = .frozen) && decide (s.oc.op = .idle))

/-- `e` is eligible, given the entries older than it (R101). -/
def State.eligible (s : State) (older : List HoldEntry) (e : HoldEntry) : Bool :=
  e.held && decide (e.capture = .free)
    && older.all (fun o => !o.held || decide (o.block ≠ e.block))
    && (e.isTrack || older.all (fun o => !o.held))
    && older.all (fun o => !o.held || o.isTrack)
    && !(e.isTrack && s.trackBarred)

/-- The oldest eligible entry, with `older` the entries before the list. -/
def State.oldestEligible (s : State) : List HoldEntry → List HoldEntry → Option HoldEntry
  | _, [] => none
  | older, e :: rest => if s.eligible older e then some e else s.oldestEligible (older ++ [e]) rest

/-- The pending read is eligible (R102). -/
def State.readEligible (s : State) : Bool :=
  match s.hq.read with
  | none => false
  | some r =>
    if r.cls = .track then s.hq.entries.all fun e => !e.held || decide (e.block ≠ blockOf r.addr)
    else s.hq.entries.all fun e => !e.held

/-- The master path's request stands (R103, R162). -/
def State.masterStands (s : State) : Bool := (s.oldestEligible [] s.hq.entries).isSome || s.readEligible

/-- A ready context (R161). No request of a context is outstanding while the port is IDLE, where this is asked. -/
def Context.ready (c : Context) : Bool :=
  match c.state with
  | .orderWait => false
  | .reading => true
  | .writingPayload => true
  | .writingHeader => true
  | .written => false

/-- The requests that stand at the arbiter (R159); after a DETACH is accepted the LC, RE and CE start none (R150). -/
def State.stands (s : State) : Requester → Bool
  | .lc => (!s.lc.writes.isEmpty || decide (s.lc.attachRead ≠ .none)) && !s.lc.dead && !s.oc.detaching
  | .re => (decide (s.re.stage = .replaying) || decide (s.re.stage = .scanning)) && !s.oc.detaching
  | .ce => (s.ce.contexts.any fun c => c.any (·.ready)) && !s.oc.detaching
  | .masterPath => s.masterStands

/-- Some request stands. -/
def State.someStands (s : State) : Bool := s.stands .lc || s.stands .re || s.stands .ce || s.stands .masterPath

/-! ## Deciding a request (R5, R12 to R15) -/

/-- The decision of the request `r` that the port holds. -/
def State.decideRequest (s : State) (r : MemRequest) : State :=
  let cls := s.classify r
  match treatment s.oc.mode s.oc.op cls r.isWrite with
  | .refuse => s.answer .error
  | .stall => { s with up := { s.up with state := .stalled .situation r } }
  | .take =>
    if r.isWrite then
      if s.canHold then s.hold r cls
      else { s with up := { s.up with state := .stalled .queue r } }
    else
      { s with
        hq := { s.hq with read := some { addr := r.addr, isBlock := r.isBlock, cls } }
        up := { s.up with state := .readPending } }

/-- The situation: mode and operation state (1.5). -/
def State.situation (s : State) : Mode × OpState := (s.oc.mode, s.oc.op)

/-- The re-decision of a stalled request (R14, R15): on a change of situation, and for reason QUEUE also when an entry
has left the hold queue. -/
def redecide (before after : State) : State :=
  match after.up.state with
  | .stalled reason r =>
    if before.situation ≠ after.situation
        ∨ (reason = .queue ∧ after.hq.entries.length < before.hq.entries.length) then after.decideRequest r
    else after
  | .idle => after
  | .readPending => after
  | .writePending => after

/-- A context in ORDER_WAIT enters READING once no older write to its block is HELD (R83). -/
def Context.release (c : Context) (entries : List HoldEntry) : Context :=
  if c.state = .orderWait ∧ entries.all (fun e => !(e.held && decide (e.block = c.block) && decide (e.order < c.trigger)))
  then { c with state := .reading } else c

/-- Every context whose order wait has ended enters READING (R83). -/
def State.releaseWaits (s : State) : State :=
  { s with ce := { s.ce with contexts := s.ce.contexts.map fun c => c.map (·.release s.hq.entries) } }

/-- The fairness count returns to 0 when the master path withdraws (R160); `calm` marks an IDLE port at which no
request stands (log 17). -/
def State.withdraw (s : State) : State :=
  { s with dp := { s.dp with
      fairness := if s.masterStands then s.dp.fairness else 0
      calm := s.dp.calm || (s.dp.port.isNone && !s.someStands) } }

/-- What follows at once from a step, in the same claim. -/
def finish (before after : State) : State := (redecide before after).releaseWaits.withdraw

/-! ## The forms of a meaning -/

/-- A step of the part outside the link: it does not occur where `f` gives none, nor while RESETn is low (log 1, 3). -/
def claim (f : State → Option State) (s : State) : Out :=
  if s.resetLow then .next s
  else
    match f s with
    | none => .next s
    | some t => .next (finish s t)

/-- The answer of a command's owner (R178). -/
inductive Reply where
  /-- Refused: the result alone. -/
  | refuse (code : ResultCode)
  /-- OK or ACCEPTED with data, and the state the owner leaves. -/
  | done (code : ResultCode) (data : List Byte) (t : State)

/-- The decision of a frame at the rise of CS puts its result into the buffer and ends the frame (R175 to R177). -/
def State.setResult (s : State) (code : ResultCode) (data : List Byte) : State :=
  { s with link := { s.link with result := { code, data }, frame := none, csLow := false } }

/-- A rise of CS with no frame in progress ends nothing (R175); where CS is high there is no rise (log 19). -/
def Link.riseUnframed (l : Link) : Link := if l.csLow then { l with csLow := false, unframed := l.unframed + 1 } else l

/-- Such a rise at the part. -/
def State.riseUnframed (s : State) : State := { s with link := s.link.riseUnframed }

/-- A link command, taken at the CS rise of the frame in progress (R176, R178); without one the rise ends nothing
(R175, log 19). -/
def command (f : State → Reply) (s : State) : Out :=
  if s.resetLow ∨ s.link.frame = none then .next s.riseUnframed
  else
    match f s with
    | .refuse code => .next (s.setResult code [])
    | .done code data t => .next ((finish s t).setResult code data)

/-- A link command that moves neither the situation nor any request: the state its owner leaves, and the result. -/
def query (f : State → Reply) (s : State) : Out :=
  if s.resetLow ∨ s.link.frame = none then .next s.riseUnframed
  else
    match f s with
    | .refuse code => .next (s.setResult code [])
    | .done code data t => .next (t.setResult code data)

/-- The first result code of a list of checks, in order, that fails (R7, R19, R47, …). -/
def firstFailure : List (Bool × ResultCode) → Option ResultCode
  | [] => none
  | (ok, code) :: rest => if ok then firstFailure rest else some code

end Sys2Proof.Machine
end

