-- ==== Sys2Proof/Machine/Levels.lean ====
section
/-! DEFINITION. Operations on the epoch stack and the rotation timer: breaking, popping, counting, starting and stopping
(R42, R58, R125). -/

namespace Sys2Proof.Machine

/-- Level `k` changes by `f`. -/
def State.setLevel (s : State) (k : Nat) (f : Level → Level) : State :=
  { s with oc := { s.oc with stack := if k = 0 then s.oc.stack else s.oc.stack.modify (k - 1) f } }

/-- The count saturates at FFFFFFFFH (R42). -/
def saturatingAdd (a b : Word32) : Word32 := if a.toNat + b.toNat < 2 ^ 32 then a + b else 0xFFFFFFFF#32

/-- EPOCH_BROKEN for each level that becomes broken, in ascending level (R42, R132, R184). -/
def raiseBroken (c : Condition) (argument : Word32) : Nat → List Level → State → State
  | _, [], s => s
  | k, l :: rest, s =>
    raiseBroken c argument (k + 1) rest (if l.broken then s else s.raise .epochBroken k c l.serial argument)

/-- A break request (R42): every level not broken becomes broken with its event, and while a rollback is SETTLING the
first request that breaks a level of its range sets the range break (R113). -/
def State.breakAll (s : State) (c : Condition) (argument : Word32) : State :=
  let t := raiseBroken c argument 1 s.oc.stack s
  let hitsRange := decide (s.re.stage = .settling) && decide (s.re.rangeBreak = .none)
    && (s.oc.stack.drop (s.re.target - 1)).any (fun l => !l.broken)
  { t with
    oc := { t.oc with stack := t.oc.stack.map fun l => { l with broken := true } }
    re := { t.re with rangeBreak := if hitsRange then c else t.re.rangeBreak } }

/-- The rotation timer starts with its full period; period 0 leaves it STOPPED (R58). -/
def State.startTimer (s : State) : State :=
  { s with oc := { s.oc with timer := if s.opts.rotationPeriod = 0 then none else some s.opts.rotationPeriod } }

/-- The rotation timer stops and the pending flag is cleared (R58). -/
def State.stopTimer (s : State) : State := { s with oc := { s.oc with timer := none, rotationPending := false } }

/-- What stands when the depth has become 0 (R58). -/
def State.stopTimerIfEmpty (s : State) : State := if s.oc.stack.isEmpty then s.stopTimer else s

/-- The innermost level leaves the stack and the stamp in force becomes that of the level below, or 0 (R44). -/
def State.popInnermost (s : State) : State :=
  let rest := s.oc.stack.dropLast
  { s with oc := { s.oc with stack := rest, stamp := { s.oc with stack := rest }.innermost } }

/-- The pop of R125, steps 1 to 4: the level, its filter entries, the stamp, and the timer at depth 0. -/
def State.popLevel (s : State) : State :=
  ({ s with cf := filterInvalidate s.cf s.oc.depth }.popInnermost).stopTimerIfEmpty

/-- `count` pops, innermost first (R132 step 1). -/
def State.popLevels (s : State) : Nat → State
  | 0 => s
  | count + 1 => s.popLevel.popLevels count

/-- The durable mark passed a written UNDO record of level `k` (R42). -/
def State.countCapture (s : State) (k : Nat) : State :=
  s.setLevel k fun l => { l with captures := saturatingAdd l.captures 1 }

/-- The operation ends: IDLE, and no phase. -/
def State.endOperation (s : State) : State := { s with oc := { s.oc with op := .idle, phase := .none } }

/-- The event argument of a rotation that failed: 1 command, 2 timer (R56, R57). -/
def failedRotationArgument : RotationOrigin → Word32
  | .command => 1
  | .timer => 2

/-- The event argument of ROTATED: 0 command, 1 timer (R56, R57). -/
def rotatedArgument : RotationOrigin → Word32
  | .command => 0
  | .timer => 1

end Sys2Proof.Machine
end

