-- ==== Sys2Proof/Machine/Log.lean ====
section
/-! DEFINITION. Operations of the Log Controller: slot reservation, its write queue, record headers, anchors and their
completion (chapter 2). -/

namespace Sys2Proof.Machine

/-! ## Slots (R27, R38) -/

/-- The LC's answer to a slot request (R27). -/
inductive SlotAnswer where
  | dead | noSlot | granted
  deriving DecidableEq, Repr

/-- What a slot request would be answered now (R27). -/
def State.slotAnswer (s : State) : SlotAnswer :=
  if s.lc.dead then .dead else if s.lc.live = s.log.slots then .noSlot else .granted

/-- The number of free slots (R37). -/
def State.freeSlots (s : State) : Nat := s.log.slots - s.lc.live

/-- The reservation at head for `level` and `serial` (R27 steps 1 to 4). -/
def LogState.reserve (lc : LogState) (n : Nat) (purpose : Purpose) (level : Nat) (serial : Word32) : LogState :=
  { lc with
    head := nextSlot n lc.head
    live := lc.live + 1
    nextSequence := lc.nextSequence + 1
    reservations := lc.reservations ++
      [{ slot := lc.head, sequence := lc.nextSequence, purpose, level, serial, state := .pending, failure := none }] }

/-- The high-water test after a reservation (R38). -/
def State.highWaterTest (s : State) : State :=
  if s.opts.highWater ≠ 0 ∧ s.lc.live = s.opts.highWater ∧ s.lc.armed then
    { s.raise .logHigh 0 .none 0 (BitVec.ofNat 32 s.lc.live) with lc := { s.lc with armed := false } }
  else s

/-- A granted slot request (R27). -/
def State.reserve (s : State) (purpose : Purpose) (level : Nat) (serial : Word32) : State :=
  { s with lc := s.lc.reserve s.log.slots purpose level serial }.highWaterTest

/-- The LC queues one of its own writes (R30). -/
def State.queueWrite (s : State) (w : LogWrite) : State := { s with lc := { s.lc with writes := s.lc.writes ++ [w] } }

/-- The reservation entry of `slot`. -/
def LogState.reservation (lc : LogState) (slot : Nat) : Option Reservation :=
  lc.reservations.find? fun e => decide (e.slot = slot)

/-- The reservation entry of `slot` changes by `f`. -/
def LogState.setReservation (lc : LogState) (slot : Nat) (f : Reservation → Reservation) : LogState :=
  { lc with reservations := lc.reservations.map fun e => if e.slot = slot then f e else e }

/-- The record of `slot` is written: its PENDING or VOIDING entry becomes WRITTEN (R28). -/
def State.slotWritten (s : State) (slot : Nat) : State :=
  { s with lc := s.lc.setReservation slot fun e => { e with state := .written } }

/-- A write for `slot` failed: its entry becomes VOIDING and a VOID header is queued (R28, R30, R31). -/
def State.slotFailed (s : State) (slot : Nat) (f : MemFailure) : State :=
  { s with lc := s.lc.setReservation slot fun e => { e with state := .voiding, failure := some f } }.queueWrite
    (.voidHeader slot)

/-- The header an OPEN or VOID write carries, from its reservation entry (R30, R31). -/
def Reservation.header (e : Reservation) (kind : RecordKind) (session : Word32) : RecordHeader :=
  { kind, level := BitVec.ofNat 8 e.level, session, sequence := e.sequence, serial := e.serial, blockAddr := 0 }

/-- The UNDO header of a context (R85). -/
def Context.header (c : Context) (session sequence : Word32) : RecordHeader :=
  { kind := .undo, level := BitVec.ofNat 8 c.level, session, sequence, serial := c.serial, blockAddr := c.block }

/-! ## Serials (R25, R43) -/

/-- The serial given, and the supply after it; none when the supply is used up. -/
def LogState.takeSerial (lc : LogState) : Option (Word32 × LogState) :=
  if lc.nextSerial = 0 then none else some (lc.nextSerial, { lc with nextSerial := lc.nextSerial + 1 })

/-! ## Anchors (R32, R34 to R36) -/

/-- The copy the next anchor write goes to: the older one (R32, R33). -/
def LogState.olderCopy (lc : LogState) : CopyName :=
  if lc.copyA.standing ≠ .valid then .a
  else if lc.copyB.standing ≠ .valid then .b
  else if takesA lc.copyA.generation lc.copyB.generation then .b else .a

/-- The generation an anchor write carries (R32). -/
def LogState.nextGeneration (lc : LogState) : Word32 :=
  if lc.copyA.standing = .valid then
    if lc.copyB.standing = .valid then
      (if takesA lc.copyA.generation lc.copyB.generation then lc.copyA.generation else lc.copyB.generation) + 1
    else lc.copyA.generation + 1
  else if lc.copyB.standing = .valid then lc.copyB.generation + 1
  else 1

/-- The anchor's tail was given as head (R34). -/
def AnchorOccasion.atHead : AnchorOccasion → Bool
  | .attachKeep => false
  | .formatA _ => false
  | .formatB => false
  | .commit => true
  | .openReclaim => true
  | .rotateReclaim => true
  | .rotateMarker _ _ => false
  | .rotateFirst => true
  | .rollback => true
  | .discard => true
  | .recovery => true

/-- The session an anchor carries (R34, R141). -/
def LogState.anchorSession (lc : LogState) : AnchorOccasion → Word32
  | .attachKeep => newSession lc.session
  | .formatA session => session
  | .formatB => lc.session
  | .commit => lc.session
  | .openReclaim => lc.session
  | .rotateReclaim => lc.session
  | .rotateMarker _ _ => lc.session
  | .rotateFirst => lc.session
  | .rollback => lc.session
  | .discard => lc.session
  | .recovery => newSession lc.session

/-- The tail slot and tail sequence an anchor carries (R34). -/
def LogState.anchorTail (lc : LogState) : AnchorOccasion → Nat × Word32
  | .attachKeep => (lc.tail, lc.tailSequence)
  | .formatA _ => (0, 1)
  | .formatB => (0, 1)
  | .rotateMarker slot sequence => (slot, sequence)
  | .commit => (lc.head, lc.nextSequence)
  | .openReclaim => (lc.head, lc.nextSequence)
  | .rotateReclaim => (lc.head, lc.nextSequence)
  | .rotateFirst => (lc.head, lc.nextSequence)
  | .rollback => (lc.head, lc.nextSequence)
  | .discard => (lc.head, lc.nextSequence)
  | .recovery => (lc.head, lc.nextSequence)

/-- The anchor write of an occasion, with the values the LC holds when it issues it (R32, R34). -/
def State.anchorJob (s : State) (o : AnchorOccasion) : AnchorJob :=
  { occasion := o
    copy := s.lc.olderCopy
    anchor :=
      { generation := s.lc.nextGeneration
        session := s.lc.anchorSession o
        slots := BitVec.ofNat 32 s.log.slots
        tail := BitVec.ofNat 32 (s.lc.anchorTail o).1
        tailSequence := (s.lc.anchorTail o).2
        nextSerial := s.lc.nextSerial } }

/-- What the LC holds of a copy changes (R32). -/
def LogState.setCopy (lc : LogState) (name : CopyName) (c : AnchorCopy) : LogState :=
  match name with
  | .a => { lc with copyA := c }
  | .b => { lc with copyB := c }

/-- The ring after an anchor write completes OKAY (R36); with the tail given as head the durable mark stands at head
(R35), and it never lies beyond head (R26, log 26). -/
def LogState.anchored (lc : LogState) (n mark : Nat) (job : AnchorJob) : LogState :=
  { lc.setCopy job.copy { standing := .valid, generation := job.anchor.generation } with
    session := job.anchor.session
    tail := job.anchor.tail.toNat
    tailSequence := job.anchor.tailSequence
    live := if job.occasion.atHead then 0 else ringDistance n job.anchor.tail.toNat lc.head
    durable :=
      if job.occasion.atHead then 0
      else min (ringDistance n job.anchor.tail.toNat mark) (ringDistance n job.anchor.tail.toNat lc.head) }

/-- R36 with the reports of R37 and R38: high-water re-arms, and a free slot ends a stall episode (R91). -/
def State.anchored (s : State) (job : AnchorJob) : State :=
  let lc := s.lc.anchored s.log.slots s.durableSlot job
  { s with
    lc := { lc with armed := lc.armed || decide (lc.live < s.opts.highWater) }
    ce := { s.ce with episode := s.ce.episode && !decide (lc.live < s.log.slots) } }

end Sys2Proof.Machine
end

