-- ==== Sys2Proof/Machine/Fence.lean ====
section
/-! DEFINITION. Entry to FENCED, the dead log, and dropped faults (R39, R46, R94, R134, R166, R169). -/

namespace Sys2Proof.Machine

/-- FAULT_DROPPED with its reason (R166). -/
def State.dropFault (s : State) (reason : Word32) : State :=
  s.raise .faultDropped s.oc.depth .none s.oc.innermost reason

/-- The hold queue's action at entry to FENCED (R109). -/
def State.fenceDiscard (s : State) : FenceReason → State
  | .frozen => s
  | .none => s
  | .brokenFault => s.discardHeld (·.isTrack)
  | .logDead => s.discardHeld (·.isTrack)

/-- Entry to FENCED (R169), the operation in progress already ended. -/
def State.enterFence (s : State) (reason : FenceReason) (c : Condition) : State :=
  let t := ({ s with oc := { s.oc with mode := .fenced, fence := reason } }.stopTimer).fenceDiscard reason
  t.raise .fenced t.oc.depth c t.oc.innermost (reason.code.setWidth 32)

/-- The stack, stamp and event an epoch operation leaves when the log dies in it (R44, R46, R51, R57; log 13). -/
def State.abandonEpochOp (s : State) : State :=
  match s.oc.phase with
  | .none => s
  | .openWait => s.popInnermost.raise .openFailed s.oc.depth .logDead s.oc.innermost 0
  | .openMarker => s.popInnermost.raise .openFailed s.oc.depth .logDead s.oc.innermost 0
  | .openReclaim serial => s.raise .openFailed (s.oc.depth + 1) .logDead serial 0
  | .commitWait => s
  | .commitAnchor => s
  | .rotateWait => { s with oc := { s.oc with stamp := s.oc.innermost } }
  | .rotateMarker => { s with oc := { s.oc with stamp := s.oc.innermost } }
  | .rotateAnchor => { s with oc := { s.oc with stamp := s.oc.innermost } }
  | .rotateFirstAnchor => { s with oc := { s.oc with stamp := s.oc.innermost } }
  | .rotateLateMarker _ => s.popInnermost
  | .rotateReclaim => s

/-- The OC ends the operation in progress because the log is dead (R46, R134, R146). -/
def State.endForDeadLog (s : State) : State :=
  let t := s.abandonEpochOp.endOperation
  { t with
    oc := { t.oc with successor := none, bar := none }
    re := { t.re with stage := .idle } }

/-- A set latch taken outside ONLINE: cleared, and FAULT_DROPPED with reason 1 (R168). -/
def State.dropLatch (s : State) : State :=
  if s.oc.latch then { s with oc := { s.oc with latch := false } }.dropFault 1 else s

/-- The LC declares the log dead (R39): the CE frees its contexts (R94), the OC ends its operation and enters FENCED
(R46, R169), and a latched assertion is dropped after the FENCED event (R168). -/
def State.declareDead (s : State) (f : MemFailure) : State :=
  let t := { s with
    lc := { s.lc with dead := true, reservations := [], writes := [] }
    ce := CaptureEngine.reset }
  ((t.endForDeadLog).enterFence .logDead (failureCondition f)).dropLatch

end Sys2Proof.Machine
end

