-- ==== Sys2Proof/Machine/Markers.lean ====
section
/-! DEFINITION. What the Operation Controller does when the durable mark passes a marker slot, and the advance of the
mark itself (R29, R42, R51, R56, R57, R86). -/

namespace Sys2Proof.Machine

/-- A failed OPEN (R50, R51): the level is popped, its writes are restamped, OPEN_FAILED is raised. -/
def State.failOpen (s : State) (c : Condition) : State :=
  let serial := s.oc.innermost
  let t := s.popInnermost
  ((t.restamp serial t.oc.stamp).raise .openFailed s.oc.depth c serial 0).stopTimerIfEmpty

/-- A failed marker of an OPEN (R51): at depth 0 the OC stays OPENING for the reclaiming anchor. -/
def State.openMarkerFailed (s : State) (c : Condition) : State :=
  let t := s.failOpen c
  if t.oc.stack.isEmpty then
    { t with oc := { t.oc with phase := .openReclaim s.oc.innermost } }.queueWrite (.anchor .openReclaim)
  else t.endOperation

/-- A durable marker of an OPEN (R51). -/
def State.openMarkerDurable (s : State) (e : Reservation) : State :=
  let t := (s.setLevel e.level fun l => { l with durable := true }).raise .opened e.level .none e.serial
    (BitVec.ofNat 32 e.slot)
  (if e.level = 1 then t.startTimer else t).endOperation

/-- A rotation abandoned at its failed marker, free-slot form (R56). -/
def State.abandonRotation (s : State) (c : Condition) : State :=
  match s.oc.successor with
  | none => s.endOperation
  | some x =>
    let t := { s with oc := { s.oc with stamp := s.oc.innermost, bar := none, successor := none } }
    ((t.restamp x.serial s.oc.innermost).raise .openFailed 1 c x.serial (failedRotationArgument x.origin)).endOperation

/-- A failed marker of the no-slot form (R57): level 1 is popped and an anchor frees the VOID slot. -/
def State.lateMarkerFailed (s : State) (origin : RotationOrigin) (c : Condition) : State :=
  let serial := s.oc.innermost
  let t := ((s.popInnermost.restamp serial 0).raise .openFailed 1 c serial (failedRotationArgument origin)).stopTimer
  { t with oc := { t.oc with phase := .rotateReclaim } }.queueWrite (.anchor .rotateReclaim)

/-- A durable marker of the no-slot form (R57). -/
def State.lateMarkerDurable (s : State) (origin : RotationOrigin) (e : Reservation) : State :=
  let t := (s.setLevel 1 fun l => { l with durable := true }).startTimer
  ({ t with oc := { t.oc with rotationPending := false } }.raise .rotated 1 .none e.serial
    (rotatedArgument origin)).endOperation

/-- The OC learns that a marker is durable (R29, R31). -/
def State.markerDurable (s : State) (e : Reservation) : State :=
  match s.oc.phase with
  | .openMarker => s.openMarkerDurable e
  | .rotateMarker =>
    { s with oc := { s.oc with phase := .rotateAnchor } }.queueWrite (.anchor (.rotateMarker e.slot e.sequence))
  | .rotateLateMarker origin => s.lateMarkerDurable origin e
  | .none => s
  | .openWait => s
  | .openReclaim _ => s
  | .commitWait => s
  | .commitAnchor => s
  | .rotateWait => s
  | .rotateAnchor => s
  | .rotateFirstAnchor => s
  | .rotateReclaim => s

/-- The OC learns that a marker failed, its slot voided (R29, R31). -/
def State.markerFailed (s : State) (c : Condition) : State :=
  match s.oc.phase with
  | .openMarker => s.openMarkerFailed c
  | .rotateMarker => s.abandonRotation c
  | .rotateLateMarker origin => s.lateMarkerFailed origin c
  | .none => s
  | .openWait => s
  | .openReclaim _ => s
  | .commitWait => s
  | .commitAnchor => s
  | .rotateWait => s
  | .rotateAnchor => s
  | .rotateFirstAnchor => s
  | .rotateReclaim => s

/-- The durable report for a slot: its context is freed (R86) and no held write depends on it any more (R96). -/
def State.slotDurable (s : State) (slot : Nat) : State :=
  { s with
    ce := { s.ce with contexts := s.ce.contexts.map fun c =>
      match c with
      | some x => if x.slot = slot then none else some x
      | none => none }
    hq := { s.hq with entries := s.hq.entries.map fun e =>
      if e.capture = .depends slot then { e with capture := .free } else e } }

/-- The reports for one slot the mark passes (R29, R42). -/
def State.passEntry (s : State) (e : Reservation) : State :=
  let t := s.slotDurable e.slot
  match e.purpose, e.failure with
  | .capture, none => t.countCapture e.level
  | .capture, some _ => t
  | .marker, none => t.markerDurable e
  | .marker, some f => t.markerFailed (failureCondition f)

/-- The mark moves over the unbroken run of WRITTEN entries, or until head (R29). -/
def advanceOver : List Reservation → State → State
  | [], s => s
  | e :: rest, s =>
    if e.state = .written ∧ s.lc.durable < s.lc.live then
      advanceOver rest
        ({ s with lc := { s.lc with reservations := rest, durable := s.lc.durable + 1 } }.passEntry e)
    else s

/-- The advance of the durable mark (R29). -/
def State.advanceMark (s : State) : State := advanceOver s.lc.reservations s

end Sys2Proof.Machine
end

