-- ==== Sys2Proof/Machine/Port.lean ====
section
/-! DEFINITION. The downstream port and its arbiter (chapter 9), and the meanings of DOWNSTREAM_GRANT and
DOWNSTREAM_REISSUE. -/

namespace Sys2Proof.Machine

/-! ## Outcomes (R156) -/

/-- The request the port carries ends with this response: the port returns to IDLE and hands the outcome to its owner.
None where the port is IDLE, or where the response is reissued instead (the failure count stays below the limit). -/
def State.portOutcome (s : State) (r : MemReply) : Option (Owner × State) :=
  match s.dp.port with
  | none => none
  | some a =>
    match r with
    | .okay _ => some (a.owner, { s with dp := { s.dp with port := none } })
    | .failed _ =>
      if a.failures + 1 < a.limit then none else some (a.owner, { s with dp := { s.dp with port := none } })

/-! ## Grants (R159 to R162) -/

/-- Granting a request: the port enters ACTIVE and presents it (R155). -/
def State.present (s : State) (owner : Owner) (request : MemRequest) : State :=
  { s with dp := { s.dp with
      port := some { owner, request, failures := 0, limit := s.opts.retryLimit, last := none }
      calm := false } }

/-- The request the LC gives at a grant: the oldest write of its queue, or its next attach read (R159). -/
def State.grantLc (s : State) : Option State :=
  match s.lc.writes with
  | w :: rest =>
    let t := { s with lc := { s.lc with writes := rest } }
    match w with
    | .openHeader slot =>
      (s.lc.reservation slot).map fun e =>
        t.present (.lcOpen slot) (.writeBlock (s.log.headerAddr slot) (e.header .open_ s.lc.session).encode)
    | .voidHeader slot =>
      (s.lc.reservation slot).map fun e =>
        t.present (.lcVoid slot) (.writeBlock (s.log.headerAddr slot) (e.header .void s.lc.session).encode)
    | .anchor o =>
      some (t.present (.lcAnchor (s.anchorJob o))
        (.writeBlock (s.log.anchorAddr (s.anchorJob o).copy) (s.anchorJob o).anchor.encode))
  | [] =>
    match s.lc.attachRead with
    | .none => none
    | .anchorA => some (s.present .lcReadA (.readBlock (s.log.anchorAddr .a)))
    | .anchorB a => some (s.present (.lcReadB a) (.readBlock (s.log.anchorAddr .b)))
    | .tailHeader => some (s.present .lcTailHeader (.readBlock (s.log.headerAddr s.lc.tail)))
    | .tailPayload h => some (s.present (.lcTailPayload h) (.readBlock (s.log.payloadAddr s.lc.tail)))

/-- The request the RE gives: the read or restore write its handling is at (R122, R124, R143, R145). -/
def State.grantRe (s : State) : State :=
  match s.re.handling with
  | .header => s.present .re (.readBlock (s.log.headerAddr s.re.cursor))
  | .payload _ => s.present .re (.readBlock (s.log.payloadAddr s.re.cursor))
  | .restore addr data => s.present .re (.writeBlock addr data)

/-- The ready context whose slot lies nearest tail (R161): its number and itself. -/
def nearestReady (n tail : Nat) : Nat → List (Option Context) → Option (Nat × Context)
  | _, [] => none
  | i, none :: rest => nearestReady n tail (i + 1) rest
  | i, some c :: rest =>
    match nearestReady n tail (i + 1) rest with
    | none => if c.ready then some (i, c) else none
    | some (j, d) =>
      if c.ready && decide (ringDistance n tail c.slot ≤ ringDistance n tail d.slot) then some (i, c) else some (j, d)

/-- The sequence of a slot as its reservation gave it (R85). -/
def LogState.reservedSequence (lc : LogState) (slot : Nat) : Word32 :=
  match lc.reservation slot with
  | some e => e.sequence
  | none => 0

/-- The request the CE gives (R84, R85, R161). -/
def State.grantCe (s : State) : Option State :=
  match nearestReady s.log.slots s.lc.tail 0 s.ce.contexts with
  | none => none
  | some (i, c) =>
    match c.state with
    | .reading => some (s.present (.ce i .read) (.readBlock c.block))
    | .writingPayload => some (s.present (.ce i .payload) (.writeBlock (s.log.payloadAddr c.slot) c.bytes))
    | .writingHeader =>
      some (s.present (.ce i .header) (.writeBlock (s.log.headerAddr c.slot)
        ((c.header s.lc.session (s.lc.reservedSequence c.slot)).encodeUndo c.bytes)))
    | .orderWait => none
    | .written => none

/-- The entry of this acceptance becomes ISSUED (R103). -/
def HoldQueue.issue (q : HoldQueue) (order : Nat) : HoldQueue :=
  { q with entries := q.entries.map fun e => if e.order = order then { e with issued := true } else e }

/-- The downstream form of the pending read (R103). -/
def PendingRead.request (r : PendingRead) : MemRequest := if r.isBlock then .readBlock r.addr else .readWord r.addr

/-- The item the master path gives: the oldest eligible entry, else the pending read (R103, R162). -/
def State.grantMaster (s : State) : Option State :=
  match s.oldestEligible [] s.hq.entries with
  | some e => some ({ s with hq := s.hq.issue e.order }.present (.masterWrite e.order) e.request)
  | none =>
    if s.readEligible then s.hq.read.map fun r => s.present .masterRead r.request else none

/-- The fairness count after a grant (R160). -/
def State.fairnessAfter (s : State) (g : Requester) : Nat :=
  match g with
  | .masterPath => 0
  | .lc => if s.masterStands then min Config.fairnessLimit (s.dp.fairness + 1) else s.dp.fairness
  | .re => if s.masterStands then min Config.fairnessLimit (s.dp.fairness + 1) else s.dp.fairness
  | .ce => if s.masterStands then min Config.fairnessLimit (s.dp.fairness + 1) else s.dp.fairness

/-- Fixed priority LC, RE, CE, master path, but for a master path whose fairness count stands at 4 (R160). -/
def State.priorityChoice (s : State) : Option Requester :=
  if s.stands .masterPath ∧ s.dp.fairness = Config.fairnessLimit then some .masterPath
  else if s.stands .lc then some .lc
  else if s.stands .re then some .re
  else if s.stands .ce then some .ce
  else if s.stands .masterPath then some .masterPath
  else none

/-- The arbiter's choice at an IDLE port: where requests came to stand at a port at which none stood, `first` is the
one taken first (R159); otherwise R160 decides. -/
def State.arbitrate (s : State) (first : Requester) : Option Requester :=
  if s.dp.calm ∧ s.stands first then some first else s.priorityChoice

/-- The grant to a requester. -/
def State.grantTo (s : State) (g : Requester) : Option State :=
  let t := { s with dp := { s.dp with fairness := s.fairnessAfter g } }
  match g with
  | .lc => t.grantLc
  | .re => some t.grantRe
  | .ce => t.grantCe
  | .masterPath => t.grantMaster

/-- DOWNSTREAM_GRANT (R159 to R162). -/
def State.grant (first : Requester) (s : State) : Option State :=
  if s.dp.port.isSome then none
  else
    match s.arbitrate first with
    | none => none
    | some g => s.grantTo g

/-- DOWNSTREAM_GRANT. -/
def execDownstreamGrant (first : Requester) (s : State) : Out := claim (State.grant first) s

/-- A failed presentation below the limit: counted, and presented again at once (R156). -/
def State.reissue (f : MemFailure) (s : State) : Option State :=
  match s.dp.port with
  | none => none
  | some a =>
    if a.failures + 1 < a.limit then
      some { s with dp := { s.dp with port := some { a with failures := a.failures + 1, last := some f } } }
    else none

/-- DOWNSTREAM_REISSUE. -/
def execDownstreamReissue (f : MemFailure) (s : State) : Out := claim (State.reissue f) s

end Sys2Proof.Machine
end

