-- ==== Sys2Proof/Machine/Capture.lean ====
section
/-! DEFINITION. The capture engine (chapter 5): CONSIDERATION and the completions of a capture's three requests. -/

namespace Sys2Proof.Machine

/-! ## Consideration (R76 to R82, R91, R92) -/

/-- An entry of the kind the consideration point stands at: TRACK, stamped, not yet out of NOT_CONSIDERED or WAITING. -/
def HoldEntry.toConsider (e : HoldEntry) : Bool :=
  e.isTrack && decide (e.stamp ≠ 0) && (decide (e.capture = .notConsidered) || decide (e.capture = .waiting))

/-- The write at the consideration point (R76). -/
def State.considerationPoint (s : State) : Option HoldEntry := s.hq.entries.find? (·.toConsider)

/-- Consideration is made in ONLINE, and in FENCED for FROZEN and BROKEN_FAULT, while the log is not dead (R76). -/
def State.considers (s : State) : Bool :=
  !s.lc.dead &&
    match s.oc.mode with
    | .online => true
    | .fenced => decide (s.oc.fence = .frozen) || decide (s.oc.fence = .brokenFault)
    | .offline => false
    | .attaching => false
    | .suspect => false
    | .recovering => false

/-- The write may be considered: its stamp is considerable and no capture bar is set on it (R77). -/
def State.mayConsider (s : State) (e : HoldEntry) : Bool :=
  s.oc.considerable e.stamp && decide (s.oc.bar ≠ some e.stamp)

/-- The capture state of the entry becomes `c`. -/
def State.setCapture (s : State) (order : Nat) (c : CaptureState) : State :=
  { s with hq := { s.hq with entries := s.hq.entries.map fun e => if e.order = order then { e with capture := c } else e } }

/-- The busy context on the block at the level (R78, R79): one that has not failed first. -/
def CaptureEngine.busyOn (ce : CaptureEngine) (block : Addr) (level : Nat) : Option Context :=
  let same := ce.contexts.filterMap id |>.filter fun c => decide (c.block = block) && decide (c.level = level)
  match same.find? (·.failure.isNone) with
  | some c => some c
  | none => same.head?

/-- The lowest-numbered free context (R81). -/
def CaptureEngine.freeContext (ce : CaptureEngine) : Option Nat := ce.contexts.findIdx? (·.isNone)

/-- The filter takes the insertion of R65. -/
def State.insert (s : State) (block : Addr) (level : Nat) : State := { s with cf := filterInsert s.cf block level }

/-- A stall episode begins, with LOG_FULL, unless one is in progress (R91, R92). -/
def State.beginEpisode (s : State) (e : HoldEntry) (level : Nat) : State :=
  if s.ce.episode then s
  else { s with ce := { s.ce with episode := true } }.raise .logFull level .noSpace e.stamp e.block

/-- A capture skipped under BREAK (R92): entry inserted, epochs broken, the write FREE, the episode begun. -/
def State.skipCapture (s : State) (e : HoldEntry) (level : Nat) : State :=
  (((s.insert e.block level).breakAll .noSpace e.block).setCapture e.order .free).beginEpisode e level

/-- A write left waiting for a slot under STALL (R91). -/
def State.stallCapture (s : State) (e : HoldEntry) (level : Nat) : State :=
  (s.setCapture e.order .waiting).beginEpisode e level

/-- "No slot" under the log-full policy in force. -/
def State.noSlot (s : State) (e : HoldEntry) (level : Nat) : State :=
  match s.opts.logFull with
  | .stall => s.stallCapture e level
  | .break_ => s.skipCapture e level

/-- A capture starts in context `i` with the slot at head (R81). -/
def State.startCapture (s : State) (e : HoldEntry) (level i : Nat) : State :=
  let c : Context :=
    { block := e.block, slot := s.lc.head, level, serial := e.stamp, trigger := e.order, state := .orderWait,
      failure := none, bytes := 0 }
  let t := (s.reserve .capture level e.stamp).insert e.block level
  { t with ce := { t.ce with contexts := t.ce.contexts.set i (some (c.release s.hq.entries)) } }.setCapture e.order
    (.depends s.lc.head)

/-- A write that needs a capture of its own (R79 case 3, R80, R81): in a stall episode no slot is asked for (R91, R92,
log 16), with every context busy it waits (R80), and after a DETACH is accepted no slot is asked for, so that the write
stays as it is (R94, R150, log 18). -/
def State.needCapture (s : State) (e : HoldEntry) (level : Nat) : State :=
  if s.ce.episode then s.noSlot e level
  else
    match s.ce.freeContext with
    | none => s.setCapture e.order .waiting
    | some i =>
      if s.oc.detaching then s
      else
        match s.slotAnswer with
        | .dead => s.setCapture e.order .waiting
        | .noSlot => s.noSlot e level
        | .granted => s.startCapture e level i

/-- The consideration of `e` at `level`, from its lookup (R78, R79). -/
def State.considerAt (s : State) (e : HoldEntry) (level : Nat) : State :=
  if filterHit s.cf e.block level then
    match s.ce.busyOn e.block level with
    | some c => s.setCapture e.order (.depends c.slot)
    | none => s.setCapture e.order .free
  else
    match s.ce.busyOn e.block level with
    | some c =>
      match c.failure, s.opts.writeMode with
      | none, _ => (s.insert e.block level).setCapture e.order (.depends c.slot)
      | some _, .posted => (s.insert e.block level).setCapture e.order (.depends c.slot)
      | some _, .strict => s.setCapture e.order .waiting
    | none => s.needCapture e level

/-- CONSIDERATION of the write at the point, where it can be considered (R76, R77). -/
def State.consider (s : State) : Option State :=
  if s.considers then
    match s.considerationPoint with
    | none => none
    | some e =>
      if s.mayConsider e then (s.oc.levelOf e.stamp).map fun level => s.considerAt e level else none
  else none

/-- CONSIDERATION. -/
def execConsideration (s : State) : Out := claim State.consider s

/-! ## The capture's requests (R84, R85, R88 to R90) -/

/-- Context `i`, if busy. -/
def CaptureEngine.context (ce : CaptureEngine) (i : Nat) : Option Context := (ce.contexts[i]?).join

/-- Context `i` becomes `c`. -/
def State.setContext (s : State) (i : Nat) (c : Context) : State :=
  { s with ce := { s.ce with contexts := s.ce.contexts.set i (some c) } }

/-- The read of a context completes OKAY (R84). A context freed meanwhile ignores the outcome (R94, R158). -/
def State.captureRead (data : BlockData) (s : State) : Option State :=
  match s.portOutcome (.okay data) with
  | some (.ce i .read, t) =>
    match s.ce.context i with
    | some c => some (t.setContext i { c with bytes := data, state := .writingPayload })
    | none => some t
  | _ => none

/-- CAPTURE_READ_COMPLETE. -/
def execCaptureReadComplete (data : BlockData) (s : State) : Out := claim (State.captureRead data) s

/-- The payload write completes OKAY (R85). -/
def State.capturePayload (s : State) : Option State :=
  match s.portOutcome (.okay 0) with
  | some (.ce i .payload, t) =>
    match s.ce.context i with
    | some c => some (t.setContext i { c with state := .writingHeader })
    | none => some t
  | _ => none

/-- CAPTURE_PAYLOAD_WRITE_COMPLETE. -/
def execCapturePayloadWriteComplete (s : State) : Out := claim State.capturePayload s

/-- The header write completes OKAY: the slot is written and the durable mark may advance (R85, R29). -/
def State.captureHeader (s : State) : Option State :=
  match s.portOutcome (.okay 0) with
  | some (.ce i .header, t) =>
    match s.ce.context i with
    | some c => some (((t.setContext i { c with state := .written }).slotWritten c.slot).advanceMark)
    | none => some t
  | _ => none

/-- CAPTURE_HEADER_WRITE_COMPLETE. -/
def execCaptureHeaderWriteComplete (s : State) : Out := claim State.captureHeader s

/-- A STRICT failure takes the write back: its entry is refused with ERROR and the filter entry removed (R89, R106). -/
def State.refuseDependents (s : State) (c : Context) : State :=
  let t := s.discardHeld fun e => decide (e.capture = .depends c.slot)
  { t with cf := filterRemove t.cf c.block c.level }

/-- A capture request failed after its retries (R88). -/
def State.captureFailed (s : State) (i : Nat) (c : Context) (f : MemFailure) : State :=
  let t := ((s.setContext i { c with failure := some f, state := .written }).slotFailed c.slot f).raise .captureFailed
    c.level (failureCondition f) c.serial c.block
  match s.opts.writeMode with
  | .strict => t.refuseDependents c
  | .posted => t.breakAll (failureCondition f) c.block

/-- The failure of a capture request, ignored once the context is freed or a DETACH is accepted (R94, R150). -/
def State.captureFails (f : MemFailure) (s : State) : Option State :=
  match s.portOutcome (.failed f) with
  | some (.ce i _, t) =>
    match s.ce.context i with
    | some c => if s.oc.detaching then some t else some (t.captureFailed i c f)
    | none => some t
  | _ => none

/-- CAPTURE_REQUEST_FAILED. -/
def execCaptureRequestFailed (f : MemFailure) (s : State) : Out := claim (State.captureFails f) s

end Sys2Proof.Machine
end

