-- ==== Sys2Proof/Machine/Configure.lean ====
section
/-! DEFINITION. The configuration commands: SETWIN, CLRWIN, SETLOG and SETOPT (R7, R8, R19, R180 and the owners' rules).
None of them moves the situation, the hold queue or a request, so nothing is re-decided with them. -/

namespace Sys2Proof.Machine

/-! ## Windows (R7, R8) -/

/-- Window modes as SETWIN's argument gives them (12.3). -/
def windowMode (m : Byte) : Option WindowMode :=
  if m = 0x00 then some .pass else if m = 0x01 then some .track else none

/-- A multiple of 1000H. -/
def pageAligned (w : Word32) : Bool := decide (w.toNat % Config.pageBytes = 0)

/-- The checks of SETWIN, in order (R7). -/
def State.setwinChecks (s : State) (index : Byte) (base limit : Word32) (mode : Byte) : List (Bool × ResultCode) :=
  [(decide (s.oc.mode = .offline), .state),
   (decide (index.toNat < Config.windowCount), .arg),
   ((windowMode mode).isSome, .arg),
   (pageAligned base, .arg),
   (pageAligned limit, .arg),
   (decide (base.toNat < limitOf limit), .arg),
   (s.apartFromWindows (some index.toNat) base.toNat (limitOf limit), .arg),
   (s.apartFromLog base.toNat (limitOf limit), .arg)]

/-- The window at `index` becomes `w` (R6). -/
def State.setWindow (s : State) (index : Nat) (w : Window) : State := { s with windows := s.windows.set index w }

/-- SETWIN as its owner takes it (R7). -/
def State.setwin (index : Byte) (base limit : Word32) (mode : Byte) (s : State) : Reply :=
  match firstFailure (s.setwinChecks index base limit mode) with
  | some code => .refuse code
  | none =>
    match windowMode mode with
    | none => .refuse .arg
    | some m =>
      .done .ok [] (s.setWindow index.toNat
        { valid := true, base := base, limit := BitVec.ofNat 33 (limitOf limit), mode := m })

/-- SETWIN. -/
def execSetwin (index : Byte) (base limit : Word32) (mode : Byte) (s : State) : Out :=
  query (State.setwin index base limit mode) s

/-- The checks of CLRWIN, in order (R8). -/
def State.clrwinChecks (s : State) (index : Byte) : List (Bool × ResultCode) :=
  [(decide (s.oc.mode = .offline), .state), (decide (index.toNat < Config.windowCount), .arg)]

/-- CLRWIN as its owner takes it (R8). -/
def State.clrwin (index : Byte) (s : State) : Reply :=
  match firstFailure (s.clrwinChecks index) with
  | some code => .refuse code
  | none => .done .ok [] (s.setWindow index.toNat Window.reset)

/-- CLRWIN. -/
def execClrwin (index : Byte) (s : State) : Out := query (State.clrwin index) s

/-! ## The log configuration (R19) -/

/-- One past the last byte of the log area SETLOG asks for. -/
def areaEndOf (base slots : Word32) : Nat := base.toNat + Config.slotBytes + slots.toNat * Config.slotBytes

/-- The checks of SETLOG, in order (R19). -/
def State.setlogChecks (s : State) (base slots : Word32) : List (Bool × ResultCode) :=
  [(decide (s.oc.mode = .offline), .state),
   (pageAligned base, .arg),
   (decide (Config.minSlots ≤ slots.toNat) && decide (slots.toNat ≤ Config.maxSlots), .arg),
   (decide (areaEndOf base slots ≤ Config.addressEnd), .arg),
   (s.apartFromWindows none base.toNat (areaEndOf base slots), .arg),
   (decide (s.opts.highWater = 0) || decide (s.opts.highWater ≤ slots.toNat), .arg)]

/-- SETLOG as its owner takes it (R19). -/
def State.setlog (base slots : Word32) (s : State) : Reply :=
  match firstFailure (s.setlogChecks base slots) with
  | some code => .refuse code
  | none => .done .ok [] { s with log := { base, slots := slots.toNat }, lc := LogState.reset }

/-- SETLOG. -/
def execSetlog (base slots : Word32) (s : State) : Out := query (State.setlog base slots) s

/-! ## Options (R180) -/

/-- The general checks of SETOPT before the option id, in order (R180). -/
def State.optionChecks (s : State) : List (Bool × ResultCode) :=
  [(decide (s.oc.mode = .offline) || decide (s.oc.mode = .online), .state),
   (decide (s.oc.mode = .offline) || decide (s.oc.op = .idle), .busy),
   (decide (s.oc.mode = .offline) || decide (s.oc.depth = 0), .depth)]

/-- An option's owner sets it, after the general checks and then the owner's own. -/
def State.setOption (s : State) (checks : List (Bool × ResultCode)) (t : State) : Reply :=
  match firstFailure (s.optionChecks ++ checks) with
  | some code => .refuse code
  | none => .done .ok [] t

/-- Write modes as an option value (R180). -/
def writeModeOf (v : Word32) : Option WriteMode := if v = 0 then some .strict else if v = 1 then some .posted else none

/-- Option 1 (R98): a change to STRICT while more than one entry is held gives BUSY. -/
def State.setWriteMode (v : Word32) (s : State) : Reply :=
  s.setOption
    [((writeModeOf v).isSome, .arg),
     (decide (writeModeOf v ≠ some .strict) || decide (s.hq.entries.length ≤ 1), .busy)]
    { s with opts := { s.opts with writeMode := (writeModeOf v).getD s.opts.writeMode } }

/-- SETOPT_WRITE_MODE. -/
def execSetoptWriteMode (v : Word32) (s : State) : Out := query (State.setWriteMode v) s

/-- Option 2 (R157). -/
def State.setRetryLimit (v : Word32) (s : State) : Reply :=
  s.setOption [(decide (1 ≤ v.toNat) && decide (v.toNat ≤ Config.maxRetries), .arg)]
    { s with opts := { s.opts with retryLimit := v.toNat } }

/-- SETOPT_RETRY_LIMIT. -/
def execSetoptRetryLimit (v : Word32) (s : State) : Out := query (State.setRetryLimit v) s

/-- Log-full policies as an option value (R180). -/
def logFullOf (v : Word32) : Option LogFullPolicy := if v = 0 then some .stall else if v = 1 then some .break_ else none

/-- Option 3 (R93). -/
def State.setLogFull (v : Word32) (s : State) : Reply :=
  s.setOption [((logFullOf v).isSome, .arg)]
    { s with opts := { s.opts with logFull := (logFullOf v).getD s.opts.logFull } }

/-- SETOPT_LOG_FULL_POLICY. -/
def execSetoptLogFullPolicy (v : Word32) (s : State) : Out := query (State.setLogFull v) s

/-- Option 4 (R38): 0, or 1 to N; success arms the mark. -/
def State.setHighWater (v : Word32) (s : State) : Reply :=
  s.setOption [(decide (v.toNat ≤ s.log.slots), .arg)]
    { s with opts := { s.opts with highWater := v.toNat }, lc := { s.lc with armed := true } }

/-- SETOPT_HIGH_WATER_MARK. -/
def execSetoptHighWaterMark (v : Word32) (s : State) : Out := query (State.setHighWater v) s

/-- Fault policies as an option value (R180). -/
def faultPolicyOf (v : Word32) : Option FaultPolicy :=
  if v = 0 then some .ignore else if v = 1 then some .freeze else if v = 2 then some .inner
  else if v = 3 then some .all else none

/-- Option 5 (R165). -/
def State.setFaultPolicy (v : Word32) (s : State) : Reply :=
  s.setOption [((faultPolicyOf v).isSome, .arg)]
    { s with opts := { s.opts with faultPolicy := (faultPolicyOf v).getD s.opts.faultPolicy } }

/-- SETOPT_FAULT_POLICY. -/
def execSetoptFaultPolicy (v : Word32) (s : State) : Out := query (State.setFaultPolicy v) s

/-- Option 6 (R58). -/
def State.setRotationPeriod (v : Word32) (s : State) : Reply :=
  s.setOption [(decide (v.toNat ≤ Config.maxPeriod), .arg)]
    { s with opts := { s.opts with rotationPeriod := v.toNat } }

/-- SETOPT_ROTATION_PERIOD. -/
def execSetoptRotationPeriod (v : Word32) (s : State) : Out := query (State.setRotationPeriod v) s

/-- SETOPT of an option id that is none of R180's: ARG once the general mode checks pass. -/
def State.unknownOption (s : State) : Reply := s.setOption [(false, .arg)] s

/-- SETOPT_UNKNOWN_OPTION. -/
def execSetoptUnknownOption (_id : Byte) (_v : Word32) (s : State) : Out := query State.unknownOption s

end Sys2Proof.Machine
end

