-- ==== Sys2Proof/Machine/Rollback.lean ====
section
/-! DEFINITION. Rollback (chapter 7): its start, SETTLING_END, the replay's completions, halting, and the commands
ROLLBACK, ABORT, RESUME and DISCARD. ABORT and RESUME serve a recovery too (R148, R149). -/

namespace Sys2Proof.Machine

/-! ## Starting (R115 to R117) -/

/-- The entry's stamp is the serial of a level from `j` to the depth (R108). -/
def Controller.inRange (oc : Controller) (j : Nat) (e : HoldEntry) : Bool :=
  (oc.stack.drop (j - 1)).any fun l => decide (l.serial = e.stamp)

/-- The part is FENCED with reason FROZEN. -/
def Controller.frozen (oc : Controller) : Bool := decide (oc.mode = .fenced) && decide (oc.fence = .frozen)

/-- The acceptance of a rollback to level `j` (R117). -/
def State.acceptRollback (s : State) (j : Nat) (origin : RollbackOrigin) : State :=
  { s with
    re := { s.re with
      stage := .settling, purpose := .rollback, origin, target := j, targetSerial := s.oc.serialAt j
      fromFreeze := s.oc.frozen
      restored := 0, abortRequested := false, haltCondition := .none, rangeBreak := .none, handling := .header }
    oc := { s.oc with op := .rolling } }.discardHeld (s.oc.inRange j)

/-- The acknowledged writes the acceptance drops (R108, R115, R167). -/
def State.rollbackDrops (s : State) (j : Nat) : Nat := s.discardCount (s.oc.inRange j)

/-- The checks of ROLLBACK, in order (R115). -/
def State.rollbackChecks (s : State) (j : Nat) : List (Bool × ResultCode) :=
  [(decide (s.oc.mode = .online) || s.oc.frozen, .state),
   (decide (s.oc.op = .idle), .busy),
   (decide (1 ≤ s.oc.depth), .depth),
   (decide (1 ≤ j) && decide (j ≤ s.oc.depth), .arg),
   (!s.oc.brokenFrom j, .broken)]

/-- ROLLBACK as its owner takes it (R115). -/
def State.rollback (j : Byte) (s : State) : Reply :=
  match firstFailure (s.rollbackChecks j.toNat) with
  | some code => .refuse code
  | none => .done .accepted (bigEndianNat (s.rollbackDrops j.toNat)) (s.acceptRollback j.toNat .command)

/-- ROLLBACK. -/
def execRollback (j : Byte) (s : State) : Out := command (State.rollback j) s

/-! ## Halting and ending (R127 to R129) -/

/-- A rollback halts at `cursor` with condition `c` (R129). -/
def State.haltRollback (s : State) (c : Condition) (cursor : Nat) : State :=
  { s with
    re := { s.re with stage := .halted, haltCondition := c, cursor, handling := .header }
    oc := { s.oc with op := .halted } }.raise .rollbackHalted s.re.target c s.re.targetSerial (BitVec.ofNat 32 cursor)

/-- The handling of the slot at the cursor fails: an abort requested is cleared (R130). -/
def State.haltSlot (s : State) (c : Condition) : State :=
  { s with re := { s.re with abortRequested := false } }.haltRollback c s.re.cursor

/-- A rollback from a freeze ends ONLINE, and the timer starts at depth 1 or more (R127, R128, R58). -/
def State.leaveFreeze (s : State) : State :=
  if s.re.fromFreeze then
    let t := { s with oc := { s.oc with mode := .online, fence := .none } }
    if s.oc.stack.isEmpty then t else t.startTimer
  else s

/-- ROLLED_BACK and the end of the rollback (R127 steps 1 to 3, R128). -/
def State.rolledBack (s : State) : State :=
  ({ s with re := { s.re with stage := .idle } }.endOperation.leaveFreeze).raise .rolledBack s.re.target .none
    s.re.targetSerial s.re.restored

/-- The start slot of the target level has been handled: the replay ends, an abort with it (R127, R128, R130). -/
def State.replayEnds (s : State) : State :=
  let t := { s with re := { s.re with abortRequested := false, handling := .header } }
  if s.re.target = 1 then { t with re := { t.re with stage := .anchoring } }.queueWrite (.anchor .rollback)
  else t.rolledBack

/-- A slot other than the target's start slot is done: the cursor moves to the slot before it, where an abort takes
effect (R124, R130). -/
def State.slotDone (s : State) : State :=
  let prev := prevSlot s.log.slots s.re.cursor
  if s.re.abortRequested then s.haltRollback .aborted prev
  else { s with re := { s.re with cursor := prev, handling := .header } }

/-! ## Replaying (R122 to R125) -/

/-- The cursor is the start slot of the innermost level still on the stack. -/
def State.atStartSlot (s : State) : Bool :=
  match s.oc.level s.oc.depth with
  | some l => decide (l.start = some s.re.cursor)
  | none => false

/-- A restore may go to this address: a valid TRACK window, outside the log area (R123, R145). -/
def State.restorable (s : State) (a : Addr) : Bool := s.tracked a && !s.log.contains a

/-- The rollback's own tests on a record that passed the ring test, in order (R123). -/
def State.rollbackTests (s : State) (header : BlockData) (k : RecordKind) : Condition :=
  if (headerSerial header).toNat < s.re.targetSerial.toNat then .badSerial
  else if k = .undo ∧ !s.restorable (headerBlockAddr header) then .badAddress
  else if s.atStartSlot ∧ ¬(k = .open_ ∧ headerSerial header = s.oc.innermost) then .badSerial
  else .none

/-- An OPEN record that passed every test (R124, R125). -/
def State.replayOpen (s : State) : State :=
  if s.atStartSlot then
    let t := s.popLevel
    if s.oc.depth = s.re.target then t.replayEnds else t.slotDone
  else s.slotDone

/-- The record at the cursor, read in full, is tested and acted on (R122 to R124). -/
def State.replayRecord (s : State) (header payload : BlockData) : State :=
  match ringTest s.lc s.log.slots s.re.cursor header payload with
  | .fails c => s.haltSlot c
  | .passes k =>
    match s.rollbackTests header k with
    | .none =>
      match k with
      | .undo => { s with re := { s.re with handling := .restore (headerBlockAddr header) payload } }
      | .open_ => s.replayOpen
      | .void => s.slotDone
    | c => s.haltSlot c

/-- A read of a slot by a rollback completes (R122). -/
def State.replayRead (r : MemReply) (s : State) : Option State :=
  if s.re.stage = .replaying ∧ s.re.purpose = .rollback then
    match s.portOutcome r with
    | some (.re, t) =>
      match s.re.handling, r with
      | .header, .okay h =>
        if headerKind h = some .undo then some { t with re := { t.re with handling := .payload h } }
        else some (t.replayRecord h 0)
      | .payload h, .okay p => some (t.replayRecord h p)
      | .header, .failed f => some (t.haltSlot (failureCondition f))
      | .payload _, .failed f => some (t.haltSlot (failureCondition f))
      | .restore _ _, _ => none
    | _ => none
  else none

/-- REPLAY_READ_COMPLETE. -/
def execReplayReadComplete (r : MemReply) (s : State) : Out := claim (State.replayRead r) s

/-- A restore write of a rollback ends (R124). -/
def State.restoreEnds (r : MemReply) (s : State) : Option State :=
  if s.re.stage = .replaying ∧ s.re.purpose = .rollback then
    match s.portOutcome r with
    | some (.re, t) =>
      match s.re.handling, r with
      | .restore _ _, .okay _ => some { t with re := { t.re with restored := t.re.restored + 1 } }.slotDone
      | .restore _ _, .failed f => some (t.haltSlot (failureCondition f))
      | .header, _ => none
      | .payload _, _ => none
    | _ => none
  else none

/-- RESTORE_WRITE_COMPLETE. -/
def execRestoreWriteComplete (r : MemReply) (s : State) : Out := claim (State.restoreEnds r) s

/-! ## Settling (R119, R121) -/

/-- Every capture context is free. -/
def CaptureEngine.allFree (ce : CaptureEngine) : Bool := ce.contexts.all (·.isNone)

/-- The settling conditions (R119). -/
def State.settled (s : State) : Bool :=
  s.ce.allFree && !s.hq.holdsTrack && !(s.hq.read.any fun r => decide (r.cls = .track))

/-- SETTLING ends: the range is looked at, then the abort request (R121). -/
def State.settle (s : State) : Option State :=
  if s.re.stage = .settling ∧ s.settled then
    let last := prevSlot s.log.slots s.lc.head
    if s.oc.brokenFrom s.re.target then some (s.haltRollback s.re.rangeBreak last)
    else if s.re.abortRequested then some (s.haltRollback .aborted last)
    else some { s with re := { s.re with stage := .replaying, cursor := last, handling := .header } }
  else none

/-- SETTLING_END. -/
def execSettlingEnd (s : State) : Out := claim State.settle s

/-! ## ABORT, RESUME, DISCARD (R130 to R132, R148, R149) -/

/-- A recovery stands halted (R147). -/
def State.recoveryHalted (s : State) : Bool := decide (s.oc.mode = .recovering) && decide (s.re.stage = .halted)

/-- A rollback or a recovery is running, which ABORT may reach. -/
def State.abortable (s : State) : Bool :=
  decide (s.oc.op = .rolling) || (decide (s.oc.mode = .recovering) && !decide (s.re.stage = .halted))

/-- ABORT as its owner takes it (R130, R148). -/
def State.abort (s : State) : Reply :=
  if !s.abortable then .refuse .state
  else if s.re.stage = .anchoring then .refuse .busy
  else .done .ok [] { s with re := { s.re with abortRequested := true } }

/-- ABORT. -/
def execAbort (s : State) : Out := command State.abort s

/-- The checks of RESUME, in order (R131, R149). A recovery has no stack, so no level of it is broken. -/
def State.resumeChecks (s : State) : List (Bool × ResultCode) :=
  [(decide (s.oc.op = .halted) || s.recoveryHalted, .state),
   (!decide (s.re.stage = .anchoring), .busy),
   (s.recoveryHalted || !s.oc.brokenFrom s.re.target, .broken)]

/-- RESUME as its owner takes it: the slot at the cursor is handled again from its header read (R131, R149). In a
halted recovery over which a DETACH has been accepted R149's effect is the model's choice; no request follows (R150,
log 34). -/
def State.resume (s : State) : Reply :=
  match firstFailure s.resumeChecks with
  | some code => .refuse code
  | none =>
    let re := { s.re with abortRequested := false, haltCondition := .none, handling := .header }
    if s.recoveryHalted then
      .done .accepted [] { s with re := { re with stage := if s.re.resumeScanning then .scanning else .replaying } }
    else
      .done .accepted [] { s with re := { re with stage := .replaying }, oc := { s.oc with op := .rolling } }

/-- RESUME. -/
def execResume (s : State) : Out := command State.resume s

/-- DISCARDED (R132 step 3). -/
def State.raiseDiscarded (s : State) : State :=
  s.raise .discarded s.re.target s.re.haltCondition s.re.targetSerial (BitVec.ofNat 32 s.re.popped)

/-- The levels a DISCARD pops: those from the target to the depth still on the stack (R132 step 1). -/
def State.discardPops (s : State) : Nat := s.oc.depth + 1 - s.re.target

/-- Steps 1 and 2 of R132. -/
def State.discardLevels (s : State) : State :=
  let t := (s.popLevels s.discardPops).breakAll s.re.haltCondition 0
  { t with re := { t.re with popped := s.discardPops } }

/-- DISCARD as its owner takes it (R132). -/
def State.discard (s : State) : Reply :=
  if s.oc.op ≠ .halted then .refuse .state
  else if s.re.stage = .anchoring then .refuse .busy
  else
    let t := s.discardLevels
    if t.oc.stack.isEmpty then
      .done .accepted []
        ({ t.stopTimer with re := { t.re with purpose := .discard, stage := .anchoring } }.queueWrite (.anchor .discard))
    else .done .ok [] (({ t with re := { t.re with stage := .idle } }.endOperation).raiseDiscarded)

/-- DISCARD. -/
def execDiscard (s : State) : Out := command State.discard s

end Sys2Proof.Machine
end

