-- ==== Sys2Proof/Machine/Faults.lean ====
section
/-! DEFINITION. The FAULT line, the fault latch and THAW (chapter 10). -/

namespace Sys2Proof.Machine

/-- FAULT_TAKEN for level `j` (R167). -/
def State.raiseFaultTaken (s : State) (j : Nat) (serial : Word32) (dropped : Nat) : State :=
  s.raise .faultTaken j .none serial (BitVec.ofNat 32 dropped)

/-- An assertion under INNER or ALL with target `j` at depth 1 or more (R167). -/
def State.faultRollback (s : State) (j : Nat) : State :=
  if s.oc.brokenFrom j then (s.raiseFaultTaken j (s.oc.serialAt j) 0).enterFence .brokenFault .none
  else (s.acceptRollback j .fault).raiseFaultTaken j (s.oc.serialAt j) (s.rollbackDrops j)

/-- An assertion acted on in ONLINE with the operation state IDLE (R167); under IGNORE it has no effect (R165). -/
def State.actOnFault (s : State) : State :=
  match s.opts.faultPolicy with
  | .ignore => s
  | .freeze => (s.raiseFaultTaken s.oc.depth s.oc.innermost 0).enterFence .frozen .none
  | .inner => if s.oc.stack.isEmpty then s.dropFault 4 else s.faultRollback s.oc.depth
  | .all => if s.oc.stack.isEmpty then s.dropFault 4 else s.faultRollback 1

/-- An assertion taken under FREEZE, INNER or ALL (R166). -/
def State.takeAssertion (s : State) : State :=
  if s.oc.op = .rolling ∨ s.oc.op = .halted then s.dropFault 2
  else if s.oc.mode ≠ .online then s.dropFault 1
  else if s.oc.op = .idle then s.actOnFault
  else if s.oc.latch then s.dropFault 3
  else { s with oc := { s.oc with latch := true } }

/-- A change of the line from inactive to active (R164 to R166). -/
def State.assertFault (s : State) : Option State :=
  if s.oc.faultLine then none
  else
    let t := { s with oc := { s.oc with faultLine := true } }
    match s.opts.faultPolicy with
    | .ignore => some t
    | .freeze => some t.takeAssertion
    | .inner => some t.takeAssertion
    | .all => some t.takeAssertion

/-- FAULT_ASSERTION. -/
def execFaultAssertion (s : State) : Out := claim State.assertFault s

/-- A change of the line from active to inactive is recorded (R164). -/
def State.deassertFault (s : State) : Option State :=
  if s.oc.faultLine then some { s with oc := { s.oc with faultLine := false } } else none

/-- FAULT_DEASSERTION. -/
def execFaultDeassertion (s : State) : Out := claim State.deassertFault s

/-- The latch taken at IDLE: cleared, and the assertion decided again (R168). -/
def State.takeLatch (s : State) : Option State :=
  if s.oc.latch ∧ s.oc.op = .idle then
    if s.oc.mode = .online then some { s with oc := { s.oc with latch := false } }.actOnFault
    else some s.dropLatch
  else none

/-- FAULT_LATCH_TAKEN. -/
def execFaultLatchTaken (s : State) : Out := claim State.takeLatch s

/-- THAW as its owner takes it (R172). -/
def State.thaw (s : State) : Reply :=
  if !s.oc.frozen then .refuse .state
  else if s.oc.op ≠ .idle then .refuse .busy
  else
    let t := { s with oc := { s.oc with mode := .online, fence := .none } }
    .done .ok [] (if s.oc.stack.isEmpty then t else t.startTimer)

/-- THAW. -/
def execThaw (s : State) : Out := command State.thaw s

end Sys2Proof.Machine
end

