-- ==== Sys2Proof/Decode.lean ====
section
/-! DEFINITION. The command frames of the management link: what a frame's complete bytes spell (R175, R176, 12.3), the
frame of a link command, and the words of the opcode table, whose rows give no bits. -/

namespace Sys2Proof

/-- How a frame is decided (R176). -/
inductive FrameDecision where
  /-- No complete byte. -/
  | discarded
  /-- Byte 0 is no command code, or too few bytes. -/
  | bad
  /-- A command taken with its arguments. -/
  | taken (c : Instr)
  deriving DecidableEq, Repr

/-- A 4-byte argument, most significant byte first (R175). -/
def argument32 (a b c d : Byte) : Word32 := a ++ b ++ c ++ d

/-- SETOPT by option id (R180). -/
def setoptCommand (id : Byte) (value : Word32) : Instr :=
  if id = 1 then .setoptWriteMode value
  else if id = 2 then .setoptRetryLimit value
  else if id = 3 then .setoptLogFullPolicy value
  else if id = 4 then .setoptHighWaterMark value
  else if id = 5 then .setoptFaultPolicy value
  else if id = 6 then .setoptRotationPeriod value
  else .setoptUnknownOption id value

/-- ATTACH by its argument byte (12.3). -/
def attachCommand (arg : Byte) : Instr := if arg = 0x01 then .attachFormat else .attachKeep arg

/-- A command whose arguments are these bytes; bytes after the last argument are ignored (R176). -/
def decodeSetwin : List Byte → FrameDecision
  | i :: b3 :: b2 :: b1 :: b0 :: l3 :: l2 :: l1 :: l0 :: m :: _ =>
    .taken (.setwin i (argument32 b3 b2 b1 b0) (argument32 l3 l2 l1 l0) m)
  | _ => .bad

/-- SETLOG: base and slot count. -/
def decodeSetlog : List Byte → FrameDecision
  | b3 :: b2 :: b1 :: b0 :: n3 :: n2 :: n1 :: n0 :: _ =>
    .taken (.setlog (argument32 b3 b2 b1 b0) (argument32 n3 n2 n1 n0))
  | _ => .bad

/-- SETOPT: option id and value. -/
def decodeSetopt : List Byte → FrameDecision
  | id :: v3 :: v2 :: v1 :: v0 :: _ => .taken (setoptCommand id (argument32 v3 v2 v1 v0))
  | _ => .bad

/-- A command of one argument byte. -/
def decodeOne (f : Byte → Instr) : List Byte → FrameDecision
  | a :: _ => .taken (f a)
  | [] => .bad

/-- The decision of a frame by its complete bytes (R176, command codes of 12.3). -/
def decodeFrame : List Byte → FrameDecision
  | [] => .discarded
  | code :: args =>
    if code = 0x00 then .taken .nop
    else if code = 0x01 then .taken .status
    else if code = 0x02 then .taken .event
    else if code = 0x03 then decodeOne .level args
    else if code = 0x10 then decodeSetwin args
    else if code = 0x11 then decodeOne .clrwin args
    else if code = 0x12 then decodeSetlog args
    else if code = 0x13 then decodeSetopt args
    else if code = 0x20 then decodeOne attachCommand args
    else if code = 0x21 then .taken .recover
    else if code = 0x22 then .taken .detach
    else if code = 0x30 then .taken .openEpoch
    else if code = 0x31 then .taken .commit
    else if code = 0x32 then .taken .rotate
    else if code = 0x33 then decodeOne .rollback args
    else if code = 0x34 then .taken .abort
    else if code = 0x35 then .taken .resume
    else if code = 0x36 then .taken .discard
    else if code = 0x37 then .taken .thaw
    else .bad

/-- The bytes of a 32-bit argument, most significant first. -/
def argumentBytes (w : Word32) : List Byte :=
  [w.extractLsb' 24 8, w.extractLsb' 16 8, w.extractLsb' 8 8, w.extractLsb' 0 8]

/-- The shortest frame of a link command (12.3); none for a step that is no link command. -/
def encodeFrame : Instr → Option (List Byte)
  | .nop => some [0x00]
  | .status => some [0x01]
  | .event => some [0x02]
  | .level k => some [0x03, k]
  | .setwin i base limit mode => some (0x10 :: i :: (argumentBytes base ++ argumentBytes limit ++ [mode]))
  | .clrwin i => some [0x11, i]
  | .setlog base slots => some (0x12 :: (argumentBytes base ++ argumentBytes slots))
  | .setoptWriteMode v => some (0x13 :: 1 :: argumentBytes v)
  | .setoptRetryLimit v => some (0x13 :: 2 :: argumentBytes v)
  | .setoptLogFullPolicy v => some (0x13 :: 3 :: argumentBytes v)
  | .setoptHighWaterMark v => some (0x13 :: 4 :: argumentBytes v)
  | .setoptFaultPolicy v => some (0x13 :: 5 :: argumentBytes v)
  | .setoptRotationPeriod v => some (0x13 :: 6 :: argumentBytes v)
  | .setoptUnknownOption id v => some (0x13 :: id :: argumentBytes v)
  | .attachKeep arg => some [0x20, arg]
  | .attachFormat => some [0x20, 0x01]
  | .recover => some [0x21]
  | .detach => some [0x22]
  | .openEpoch => some [0x30]
  | .commit => some [0x31]
  | .rotate => some [0x32]
  | .rollback j => some [0x33, j]
  | .abort => some [0x34]
  | .resume => some [0x35]
  | .discard => some [0x36]
  | .thaw => some [0x37]
  | .pinReset => none
  | .faultAssertion => none
  | .faultDeassertion => none
  | .upstreamRequest _ => none
  | .frameError _ => none
  | .rotationTimerExpiry => none
  | .pendingRotationTaken => none
  | .faultLatchTaken => none
  | .consideration => none
  | .downstreamGrant _ => none
  | .downstreamReissue _ => none
  | .masterReadComplete _ => none
  | .masterWriteComplete => none
  | .masterWriteFailed _ => none
  | .captureReadComplete _ => none
  | .capturePayloadWriteComplete => none
  | .captureHeaderWriteComplete => none
  | .captureRequestFailed _ => none
  | .markerWriteComplete => none
  | .markerWriteFailed _ => none
  | .voidWriteComplete => none
  | .voidWriteFailed _ => none
  | .anchorWriteComplete => none
  | .anchorWriteFailed _ => none
  | .anchorReadComplete _ => none
  | .tailReadComplete _ => none
  | .replayReadComplete _ => none
  | .restoreWriteComplete _ => none
  | .scanReadComplete _ => none
  | .recoveryReadComplete _ => none
  | .recoveryRestoreComplete _ => none
  | .attachDrainEnd => none
  | .orderingWaitEnd => none
  | .commitWaitEnd => none
  | .rotateWaitEnd => none
  | .settlingEnd => none
  | .detachComplete => none
  | .resetnRelease _ => none
  | .frameBegin => none
  | .responseToAbandonedRequest _ => none

/-- The command a word of the opcode table spells. No row of spec/opcode_table.json gives any bits ("fields" is empty
and there is no "fixed"), so no word spells one. -/
def decodeTableWord (_nbits _w : Nat) : Option Instr := none

end Sys2Proof
end

