-- ==== Sys2Proof/WellFormed.lean ====
section
/-! DEFINITION. Which operands a row of the table can carry. The meanings are total: these checks say which terms name
an event of the part, and no meaning leans on them. -/

namespace Sys2Proof

/-- A command whose operands its row can carry. A FRAME_ERROR's bytes spell no command (R176); ATTACH with FORMAT's
code is ATTACH_FORMAT's row (log 9); SETOPT with an option id of R180 is that option's row. -/
def WellFormed : Instr → Bool
  | .frameError bytes =>
    match decodeFrame bytes with
    | .discarded => true
    | .bad => true
    | .taken _ => false
  | .attachKeep arg => decide (arg ≠ 0x01)
  | .setoptUnknownOption id _ => decide (id = 0) || decide (6 < id.toNat)
  | .nop => true
  | .status => true
  | .event => true
  | .level _ => true
  | .setwin _ _ _ _ => true
  | .clrwin _ => true
  | .setlog _ _ => true
  | .setoptWriteMode _ => true
  | .setoptRetryLimit _ => true
  | .setoptLogFullPolicy _ => true
  | .setoptHighWaterMark _ => true
  | .setoptFaultPolicy _ => true
  | .setoptRotationPeriod _ => true
  | .attachFormat => true
  | .recover => true
  | .detach => true
  | .openEpoch => true
  | .commit => true
  | .rotate => true
  | .rollback _ => true
  | .abort => true
  | .resume => true
  | .discard => true
  | .thaw => true
  | .pinReset => true
  | .faultAssertion => true
  | .faultDeassertion => true
  | .upstreamRequest _ => true
  | .rotationTimerExpiry => true
  | .pendingRotationTaken => true
  | .faultLatchTaken => true
  | .consideration => true
  | .downstreamGrant _ => true
  | .downstreamReissue _ => true
  | .masterReadComplete _ => true
  | .masterWriteComplete => true
  | .masterWriteFailed _ => true
  | .captureReadComplete _ => true
  | .capturePayloadWriteComplete => true
  | .captureHeaderWriteComplete => true
  | .captureRequestFailed _ => true
  | .markerWriteComplete => true
  | .markerWriteFailed _ => true
  | .voidWriteComplete => true
  | .voidWriteFailed _ => true
  | .anchorWriteComplete => true
  | .anchorWriteFailed _ => true
  | .anchorReadComplete _ => true
  | .tailReadComplete _ => true
  | .replayReadComplete _ => true
  | .restoreWriteComplete _ => true
  | .scanReadComplete _ => true
  | .recoveryReadComplete _ => true
  | .recoveryRestoreComplete _ => true
  | .attachDrainEnd => true
  | .orderingWaitEnd => true
  | .commitWaitEnd => true
  | .rotateWaitEnd => true
  | .settlingEnd => true
  | .detachComplete => true
  | .resetnRelease _ => true
  | .frameBegin => true
  | .responseToAbandonedRequest _ => true

end Sys2Proof
end

