-- ==== Sys2Proof/Machine/Link.lean ====
section
/-! DEFINITION. The management link's own commands: frames, NOP, STATUS, EVENT, LEVEL (chapter 11). -/

namespace Sys2Proof.Machine

/-- FRAME_BEGIN: CS falls, and the result buffer as it stands is shifted out during the frame (R175, R177). A fall seen
while RESETn is low begins none (R175); where CS is low already there is no fall (log 19). -/
def execFrameBegin (s : State) : Out :=
  if s.link.csLow then .next s
  else .next { s with link := { s.link with
      csLow := true, frame := if s.resetLow then none else some s.link.result } }

/-- FRAME_ERROR: a frame with no complete byte is discarded; one that is too short or whose byte 0 is no command code
puts FRAME into the result buffer; neither changes anything else (R176). Bytes that spell a command are that command's
row (WellFormed). -/
def execFrameError (bytes : List Byte) (s : State) : Out :=
  if s.resetLow ∨ s.link.frame = none then .next s.riseUnframed
  else
    match decodeFrame bytes with
    | .discarded => .next { s with link := { s.link with frame := none, csLow := false } }
    | .bad => .next (s.setResult .frame [])
    | .taken _ => .next s

/-- NOP: OK with no data, and no state changes (R179). -/
def execNop (s : State) : Out := query (fun s => .done .ok [] s) s

/-- STATUS: the status block of this moment, and the lost-event count is cleared (R181). -/
def execStatus (s : State) : Out :=
  query (fun s => .done .ok s.statusBlock { s with eq := { s.eq with lost := 0 } }) s

/-- EVENT as its owner takes it (R185). -/
def State.readEvent (s : State) : Reply :=
  match s.eq.records with
  | [] => .refuse .empty
  | e :: rest => .done .ok e.bytes { s with eq := { s.eq with records := rest } }

/-- EVENT. -/
def execEvent (s : State) : Out := query State.readEvent s

/-- LEVEL as its owner takes it (R182). -/
def State.readLevel (k : Byte) (s : State) : Reply :=
  match s.oc.level k.toNat with
  | none => .refuse .arg
  | some l => .done .ok l.block s

/-- LEVEL. -/
def execLevel (k : Byte) (s : State) : Out := query (State.readLevel k) s

end Sys2Proof.Machine
end

