-- ==== Sys2Proof/Machine/Attaching.lean ====
section
/-! DEFINITION. Attaching, recovery and detaching (chapter 8): ATTACH, RECOVER, DETACH, the attach reads, the scan and
replay of a recovery, and DETACH_COMPLETE. -/

namespace Sys2Proof.Machine

/-! ## ATTACH (R11, R137, R138) -/

/-- WRITE_LOST with condition NONE for each acknowledged entry dropped at attach (R11, log 12), oldest entry first: R11
and R184 give no order among them, and this one is the model's choice (log 32). -/
def raiseDropped : List HoldEntry → State → State
  | [], s => s
  | e :: rest, s => raiseDropped rest (if e.acknowledged then s.raise .writeLost 0 .none 0 e.addr else s)

/-- A HELD entry of class LOG, which an accepted ATTACH removes (R11). -/
def HoldEntry.isLog (e : HoldEntry) : Bool := decide (e.cls = .log)

/-- The acceptance of ATTACH (R137): ATTACHING, DRAINING, the ring state at its reset values, the unissued LOG entries
removed. -/
def State.beginAttach (s : State) (arg : AttachArg) : State :=
  let gone := s.hq.entries.filter fun e => e.held && e.isLog
  raiseDropped gone
    ({ s with
      oc := { s.oc with mode := .attaching, attach := some { phase := .draining, arg } }
      lc := LogState.reset }.discardHeld (·.isLog))

/-- The ATTACH argument a byte gives (12.3). -/
def attachArg (arg : Byte) : Option AttachArg :=
  if arg = 0x00 then some .keep else if arg = 0x01 then some .format else none

/-- The checks of ATTACH, in order (R137). -/
def State.attachChecks (s : State) (arg : Byte) : List (Bool × ResultCode) :=
  [(decide (s.oc.mode = .offline), .state), ((attachArg arg).isSome, .arg), (decide (s.log.slots ≠ 0), .state)]

/-- ATTACH as its owner takes it (R137). -/
def State.attach (arg : Byte) (s : State) : Reply :=
  match firstFailure (s.attachChecks arg) with
  | some code => .refuse code
  | none =>
    match attachArg arg with
    | none => .refuse .arg
    | some a => .done .accepted [] (s.beginAttach a)

/-- ATTACH_KEEP: ATTACH whose argument byte is not FORMAT's; one that is neither is refused with ARG (log 9). -/
def execAttachKeep (arg : Byte) (s : State) : Out := command (State.attach arg) s

/-- ATTACH_FORMAT. -/
def execAttachFormat (s : State) : Out := command (State.attach 0x01) s

/-- The attach phase becomes `p`. -/
def State.setAttachPhase (s : State) (p : AttachPhase) : State :=
  { s with oc := { s.oc with attach := s.oc.attach.map fun a => { a with phase := p } } }

/-- The hold queue holds no TRACK entry: DRAINING becomes READING (R111, R137). -/
def State.drainEnds (s : State) : Option State :=
  match s.oc.attach with
  | none => none
  | some a =>
    if s.oc.mode = .attaching ∧ a.phase = .draining ∧ !s.hq.holdsTrack then
      let t := s.setAttachPhase .reading
      some { t with lc := { t.lc with attachRead := .anchorA } }
    else none

/-- ATTACH_DRAIN_END. -/
def execAttachDrainEnd (s : State) : Out := claim State.drainEnds s

/-- The argument of ATTACH_FAILED: 0 KEEP, 1 FORMAT (R138). -/
def Controller.attachCode (oc : Controller) : Word32 :=
  match oc.attach with
  | some a => (match a.arg with | .keep => 0 | .format => 1)
  | none => 0

/-- The attach fails (R138). -/
def State.attachFails (s : State) (c : Condition) : State :=
  { s with lc := LogState.reset, oc := { s.oc with attach := none, mode := .offline } }.raise .attachFailed 0 c 0
    s.oc.attachCode

/-- The attach completes in `mode` (R140, R141). -/
def State.attached (s : State) (mode : Mode) (argument : Word32) : State :=
  { s with oc := { s.oc with mode, attach := none } }.raise .attached 0 .none s.lc.session argument

/-! ## The attach reads (R139 to R141) -/

/-- What the LC records of a copy it has read (R139). -/
def copyOf : Option Anchor → AnchorCopy
  | some a => { standing := .valid, generation := a.generation }
  | none => { standing := .invalid, generation := 0 }

/-- The selected copy (R139). -/
def selectAnchor : Option Anchor → Option Anchor → Option Anchor
  | none, none => none
  | some a, none => some a
  | none, some b => some b
  | some a, some b => if takesA a.generation b.generation then some a else some b

/-- The ring state KEEP takes from the selected copy (R139). -/
def LogState.takeAnchor (lc : LogState) (a : Anchor) : LogState :=
  { lc with
    session := a.session, tail := a.tail.toNat, tailSequence := a.tailSequence, head := a.tail.toNat, live := 0
    durable := 0, nextSequence := a.tailSequence, nextSerial := a.nextSerial, armed := true
    attachRead := .tailHeader }

/-- The ring state FORMAT sets (R141 step 2). -/
def LogState.format (lc : LogState) : LogState :=
  { lc with
    tail := 0, tailSequence := 1, head := 0, live := 0, durable := 0, nextSequence := 1, nextSerial := 1, armed := true
    copyA := AnchorCopy.reset, copyB := AnchorCopy.reset, attachRead := .none }

/-- The new session of FORMAT (R141 step 1). -/
def formatSession : Option Anchor → Word32
  | some a => newSession a.session
  | none => 1

/-- Both copies have been read (R139, R141). -/
def State.anchorsRead (s : State) (a b : Option Anchor) : State :=
  match s.oc.attach with
  | none => s
  | some t =>
    match t.arg with
    | .keep =>
      match selectAnchor a b with
      | none => s.attachFails .noAnchor
      | some x => { s with lc := s.lc.takeAnchor x }
    | .format =>
      ({ s with lc := s.lc.format }.setAttachPhase .writing).queueWrite
        (.anchor (.formatA (formatSession (selectAnchor a b))))

/-- A read of an anchor copy ends (R138, R139, R141). -/
def State.anchorRead (r : MemReply) (s : State) : Option State :=
  match s.portOutcome r with
  | some (.lcReadA, t) =>
    match r with
    | .failed f => some (t.attachFails (failureCondition f))
    | .okay d =>
      let a := readAnchor s.log.slots d
      some { t with lc := { t.lc with copyA := copyOf a, attachRead := .anchorB a } }
  | some (.lcReadB a, t) =>
    match r with
    | .failed f => some (t.attachFails (failureCondition f))
    | .okay d =>
      let b := readAnchor s.log.slots d
      some ({ t with lc := { t.lc with copyB := copyOf b, attachRead := .none } }.anchorsRead a b)
  | _ => none

/-- ANCHOR_READ_COMPLETE. -/
def execAnchorReadComplete (r : MemReply) (s : State) : Out := claim (State.anchorRead r) s

/-- The tail test (R140): a valid record leads to SUSPECT, any other to the anchor with a new session. -/
def State.tailTest (s : State) (header payload : BlockData) : State :=
  let t := { s with lc := { s.lc with attachRead := .none } }
  match ringTest s.lc s.log.slots s.lc.tail header payload with
  | .passes _ => t.attached .suspect 1
  | .fails _ => (t.setAttachPhase .writing).queueWrite (.anchor .attachKeep)

/-- A read of the tail record ends (R138, R140). -/
def State.tailRead (r : MemReply) (s : State) : Option State :=
  match s.portOutcome r with
  | some (.lcTailHeader, t) =>
    match r with
    | .failed f => some (t.attachFails (failureCondition f))
    | .okay h =>
      if headerKind h = some .undo then some { t with lc := { t.lc with attachRead := .tailPayload h } }
      else some (t.tailTest h 0)
  | some (.lcTailPayload h, t) =>
    match r with
    | .failed f => some (t.attachFails (failureCondition f))
    | .okay p => some (t.tailTest h p)
  | _ => none

/-- TAIL_READ_COMPLETE. -/
def execTailReadComplete (r : MemReply) (s : State) : Out := claim (State.tailRead r) s

/-! ## Recovery (R142 to R149) -/

/-- RECOVER as its owner takes it (R142). Over a DETACH accepted in SUSPECT that effect is the model's choice; no
request follows (R150, log 34). -/
def State.recover (s : State) : Reply :=
  if s.oc.mode ≠ .suspect then .refuse .state
  else
    .done .accepted []
      { s with
        oc := { s.oc with mode := .recovering }
        re := { s.re with
          stage := .scanning, purpose := .recovery, cursor := s.lc.tail, restored := 0, abortRequested := false
          haltCondition := .none, resumeScanning := true, scanned := 0, opens := 0, highest := 0, handling := .header } }

/-- RECOVER. -/
def execRecover (s : State) : Out := command State.recover s

/-- A recovery halts at `cursor` (R147). -/
def State.haltRecovery (s : State) (c : Condition) (cursor : Nat) : State :=
  { s with re := { s.re with stage := .halted, haltCondition := c, cursor, handling := .header } }.raise
    .recoveryHalted 0 c 0 (BitVec.ofNat 32 cursor)

/-- The slot in hand halts the recovery on its own failure: an abort requested is cleared (R148). -/
def State.haltRecoverySlot (s : State) (c : Condition) : State :=
  { s with re := { s.re with abortRequested := false } }.haltRecovery c s.re.cursor

/-- The next serial at the end of a recovery (R146). -/
def recoveredSerial (next highest : Word32) : Word32 :=
  if next = 0 then 0
  else if highest = 0xFFFFFFFF#32 then 0
  else if next.toNat ≤ highest.toNat + 1 then highest + 1 else next

/-- ANCHORING at the end of a recovery (R146). -/
def State.recoveryAnchors (s : State) : State :=
  { s with
    re := { s.re with stage := .anchoring, abortRequested := false, handling := .header }
    lc := { s.lc with nextSerial := recoveredSerial s.lc.nextSerial s.re.highest } }.queueWrite (.anchor .recovery)

/-- The scan ends with head′ at `head` (R144); an abort requested halts at head′−1 (R148). -/
def State.scanEnds (s : State) (head : Nat) : State :=
  let t := { s with lc := { s.lc with
    head, live := s.re.scanned, durable := s.re.scanned
    nextSequence := s.lc.tailSequence + BitVec.ofNat 32 s.re.scanned } }
  if s.re.scanned = 0 then t.recoveryAnchors
  else
    let last := prevSlot s.log.slots head
    let u := { t with re := { t.re with stage := .replaying, resumeScanning := false, cursor := last, handling := .header } }
    if s.re.abortRequested then u.haltRecovery .aborted last else u

/-- A slot passes the scan (R143): counted, then the next slot, unless the scan or an abort ends here (R144, R148). -/
def State.scanPasses (s : State) (k : RecordKind) (serial : Word32) : State :=
  let t := { s with re := { s.re with
    scanned := s.re.scanned + 1
    opens := if k = RecordKind.open_ then s.re.opens + 1 else s.re.opens
    highest := if s.re.highest.toNat < serial.toNat then serial else s.re.highest } }
  let next := nextSlot s.log.slots s.re.cursor
  if s.log.slots ≤ t.re.scanned then t.scanEnds s.lc.tail
  else if s.re.abortRequested then t.haltRecovery .aborted next
  else { t with re := { t.re with cursor := next, handling := .header } }

/-- The record at the cursor, read in full by the scan (R143). -/
def State.scanRecord (s : State) (header payload : BlockData) : State :=
  match ringTest s.lc s.log.slots s.re.cursor header payload with
  | .passes k => s.scanPasses k (headerSerial header)
  | .fails _ => s.scanEnds s.re.cursor

/-- A read of the scan ends (R143, R147). -/
def State.scanRead (r : MemReply) (s : State) : Option State :=
  if s.re.stage = .scanning then
    match s.portOutcome r with
    | some (.re, t) =>
      match s.re.handling, r with
      | .header, .okay h =>
        if headerKind h = some .undo then some { t with re := { t.re with handling := .payload h } }
        else some (t.scanRecord h 0)
      | .payload h, .okay p => some (t.scanRecord h p)
      | .header, .failed f => some (t.haltRecoverySlot (failureCondition f))
      | .payload _, .failed f => some (t.haltRecoverySlot (failureCondition f))
      | .restore _ _, _ => none
    | _ => none
  else none

/-- SCAN_READ_COMPLETE. -/
def execScanReadComplete (r : MemReply) (s : State) : Out := claim (State.scanRead r) s

/-- A slot of the recovery's replay is done: at tail the replay ends; else an abort takes effect or the slot before it
is handled (R145, R148). -/
def State.recoverySlotDone (s : State) : State :=
  let prev := prevSlot s.log.slots s.re.cursor
  if s.re.cursor = s.lc.tail then s.recoveryAnchors
  else if s.re.abortRequested then s.haltRecovery .aborted prev
  else { s with re := { s.re with cursor := prev, handling := .header } }

/-- The record at the cursor, read in full by the recovery's replay (R145). -/
def State.recoveryRecord (s : State) (header payload : BlockData) : State :=
  match ringTest s.lc s.log.slots s.re.cursor header payload with
  | .fails c => s.haltRecoverySlot c
  | .passes k =>
    match k with
    | .undo =>
      if s.restorable (headerBlockAddr header) then
        { s with re := { s.re with handling := .restore (headerBlockAddr header) payload } }
      else s.haltRecoverySlot .badAddress
    | .open_ => s.recoverySlotDone
    | .void => s.recoverySlotDone

/-- A read of the recovery's replay ends (R145). -/
def State.recoveryRead (r : MemReply) (s : State) : Option State :=
  if s.re.stage = .replaying ∧ s.re.purpose = .recovery then
    match s.portOutcome r with
    | some (.re, t) =>
      match s.re.handling, r with
      | .header, .okay h =>
        if headerKind h = some .undo then some { t with re := { t.re with handling := .payload h } }
        else some (t.recoveryRecord h 0)
      | .payload h, .okay p => some (t.recoveryRecord h p)
      | .header, .failed f => some (t.haltRecoverySlot (failureCondition f))
      | .payload _, .failed f => some (t.haltRecoverySlot (failureCondition f))
      | .restore _ _, _ => none
    | _ => none
  else none

/-- RECOVERY_READ_COMPLETE. -/
def execRecoveryReadComplete (r : MemReply) (s : State) : Out := claim (State.recoveryRead r) s

/-- A restore write of a recovery ends (R145). -/
def State.recoveryRestoreEnds (r : MemReply) (s : State) : Option State :=
  if s.re.stage = .replaying ∧ s.re.purpose = .recovery then
    match s.portOutcome r with
    | some (.re, t) =>
      match s.re.handling, r with
      | .restore _ _, .okay _ =>
        some { t with re := { t.re with restored := t.re.restored + 1 } }.recoverySlotDone
      | .restore _ _, .failed f => some (t.haltRecoverySlot (failureCondition f))
      | .header, _ => none
      | .payload _, _ => none
    | _ => none
  else none

/-- RECOVERY_RESTORE_COMPLETE. -/
def execRecoveryRestoreComplete (r : MemReply) (s : State) : Out := claim (State.recoveryRestoreEnds r) s

/-- The anchor of a recovery is complete (R146). -/
def State.recovered (s : State) : State :=
  { s with re := { s.re with stage := .idle }, oc := { s.oc with mode := .online } }.raise .recovered
    (min 255 s.re.opens) .none s.re.highest s.re.restored

/-! ## DETACH (R150, R151) -/

/-- The answer to DETACH in each situation: none where it is accepted (R136, R150). -/
def State.detachRefusal (s : State) : Option ResultCode :=
  match s.oc.mode with
  | .offline => some .state
  | .attaching => some .state
  | .suspect => none
  | .recovering => if s.re.stage = .halted then none else some .busy
  | .online =>
    match s.oc.op with
    | .idle => if s.oc.stack.isEmpty then none else some .depth
    | .halted => if s.re.stage = .halted then none else some .busy
    | .opening => some .busy
    | .committing => some .busy
    | .rotating => some .busy
    | .rolling => some .busy
    | .detaching => some .busy
  | .fenced =>
    match s.oc.op with
    | .idle => none
    | .halted => if s.re.stage = .halted then none else some .busy
    | .opening => some .busy
    | .committing => some .busy
    | .rotating => some .busy
    | .rolling => some .busy
    | .detaching => some .busy

/-- The acceptance of DETACH (R150). -/
def State.beginDetach (s : State) : State :=
  let t := s.stopTimer
  { t with
    oc := { t.oc with
      op := if s.oc.mode = .online ∨ s.oc.mode = .fenced then .detaching else t.oc.op
      detaching := true }
    lc := { t.lc with writes := [], attachRead := .none } }

/-- DETACH as its owner takes it (R150). -/
def State.detach (s : State) : Reply :=
  match s.detachRefusal with
  | some code => .refuse code
  | none => .done .accepted [] s.beginDetach

/-- DETACH. -/
def execDetach (s : State) : Out := command State.detach s

/-- The requester of a request on the port (R155). -/
def Owner.requester : Owner → Requester
  | .lcOpen _ => .lc
  | .lcVoid _ => .lc
  | .lcAnchor _ => .lc
  | .lcReadA => .lc
  | .lcReadB _ => .lc
  | .lcTailHeader => .lc
  | .lcTailPayload _ => .lc
  | .re => .re
  | .ce _ _ => .ce
  | .masterWrite _ => .masterPath
  | .masterRead => .masterPath

/-- The waits of a detach have ended: no request of the LC, RE or CE is in flight and no TRACK entry is ISSUED (R150).
-/
def State.detachWaitOver (s : State) : Bool :=
  s.oc.detaching && !(s.dp.port.any fun a => decide (a.owner.requester ≠ .masterPath))
    && s.hq.entries.all fun e => !(e.isTrack && e.issued)

/-- The completion of a detach, as one claim (R151); a latched assertion is dropped first (R168, log 14). -/
def State.detachCompletes (s : State) : Option State :=
  if s.detachWaitOver then
    let dropped := s.discardCount (·.isTrack)
    let t := { s.discardHeld (·.isTrack) with
      cf := [], ce := CaptureEngine.reset, lc := LogState.reset, re := RestoreEngine.reset
      oc := { Controller.reset with latch := s.oc.latch, faultLine := s.oc.faultLine } }
    some (t.dropLatch.raise .detached 0 .none 0 (BitVec.ofNat 32 dropped))
  else none

/-- DETACH_COMPLETE. -/
def execDetachComplete (s : State) : Out := claim State.detachCompletes s

end Sys2Proof.Machine
end

