-- ==== Sys2Proof/Machine/Epochs.lean ====
section
/-! DEFINITION. Epochs (chapter 3): OPEN, COMMIT, ROTATE, their waits, the rotation timer, and what the completion of
their anchors does. -/

namespace Sys2Proof.Machine

/-- The checks that the three commands share: BUSY while a rollback is ROLLING or HALTED, in any mode (R118, R129), else
R47's order, the mode first. Only over a rollback from a freeze (mode FENCED) do the two differ (log 33). -/
def State.epochChecks (s : State) : List (Bool × ResultCode) :=
  [(decide (s.oc.op ≠ .rolling ∧ s.oc.op ≠ .halted), .busy), (decide (s.oc.mode = .online), .state),
   (decide (s.oc.op = .idle), .busy)]

/-- Consideration is reported paused for want of a slot (R82). -/
def State.pausedForSlot (s : State) : Bool := s.ce.episode && decide (s.opts.logFull = .stall)

/-! ## OPEN (R47 to R51) -/

/-- The checks of OPEN, in order (R47). -/
def State.openChecks (s : State) : List (Bool × ResultCode) :=
  s.epochChecks ++
    [(decide (s.oc.depth < Config.maxDepth), .depth), (decide (1 ≤ s.freeSlots), .space),
     (decide (s.lc.nextSerial ≠ 0), .space)]

/-- An accepted OPEN with serial `serial` (R48). -/
def State.pushLevel (s : State) (serial : Word32) : State :=
  { s with oc := { s.oc with
      stack := s.oc.stack ++ [{ serial, start := none, durable := false, broken := false, captures := 0 }]
      stamp := serial, op := .opening, phase := .openWait } }

/-- OPEN as its owner takes it (R47, R48). -/
def State.openEpoch (s : State) : Reply :=
  match firstFailure s.openChecks with
  | some code => .refuse code
  | none =>
    match s.lc.takeSerial with
    | none => .refuse .space
    | some (serial, lc) => .done .accepted (bigEndian serial) ({ s with lc }.pushLevel serial)

/-- OPEN. -/
def execOpenEpoch (s : State) : Out := command State.openEpoch s

/-- The ordering wait holds on no write: none stamped below `serial` is still to be considered (R49). -/
def State.orderingClear (s : State) (serial : Word32) : Bool :=
  s.hq.entries.all fun e => !(e.held && e.toConsider && decide (e.stamp.toNat < serial.toNat))

/-- The ordering wait ends, and the OC asks for the marker slot (R49 to R51). -/
def State.orderingEnds (s : State) : Option State :=
  if s.oc.phase = .openWait ∧ (s.orderingClear s.oc.innermost ∨ s.pausedForSlot) then
    match s.slotAnswer with
    | .dead => some (s.endForDeadLog.enterFence .logDead .none)
    | .noSlot => some (s.failOpen .noSpace).endOperation
    | .granted =>
      let t := (s.reserve .marker s.oc.depth s.oc.innermost).setLevel s.oc.depth
        fun l => { l with start := some s.lc.head }
      some ({ t with oc := { t.oc with phase := .openMarker } }.queueWrite (.openHeader s.lc.head))
  else none

/-- ORDERING_WAIT_END. -/
def execOrderingWaitEnd (s : State) : Out := claim State.orderingEnds s

/-! ## COMMIT (R52 to R54) -/

/-- The checks of COMMIT, in order (R47). -/
def State.commitChecks (s : State) : List (Bool × ResultCode) := s.epochChecks ++ [(decide (1 ≤ s.oc.depth), .depth)]

/-- The contexts and reservations of level `k` take level `k - 1` and its serial (R52 step 4, R87). -/
def State.relabelCaptures (s : State) (k : Nat) (serial : Word32) : State :=
  { s with
    ce := { s.ce with contexts := s.ce.contexts.map fun c => c.map fun x =>
      if x.level = k then { x with level := k - 1, serial } else x }
    lc := { s.lc with reservations := s.lc.reservations.map fun e =>
      if e.purpose = .capture ∧ e.level = k then { e with level := k - 1, serial } else e } }

/-- An inner COMMIT at depth `k` of 2 or more, where `top` is level `k` (R52). -/
def State.commitInner (s : State) (k : Nat) (top : Level) : State :=
  let below := s.oc.serialAt (k - 1)
  let t := s.setLevel (k - 1) fun l => { l with captures := saturatingAdd l.captures top.captures }
  let u := ({ t.popInnermost with cf := filterRelabel s.cf k }.relabelCaptures k below).restamp top.serial below
  u.raise .committed k .none top.serial top.captures

/-- COMMIT as its owner takes it (R47, R52, R53). -/
def State.commit (s : State) : Reply :=
  match firstFailure s.commitChecks with
  | some code => .refuse code
  | none =>
    match s.oc.stack.getLast? with
    | none => .refuse .depth
    | some top =>
      if 2 ≤ s.oc.depth then .done .ok [] (s.commitInner s.oc.depth top)
      else .done .accepted [] { s with oc := { s.oc with stamp := 0, op := .committing, phase := .commitWait } }

/-- COMMIT. -/
def execCommit (s : State) : Out := command State.commit s

/-- The commit wait's conditions for level 1's serial (R53). -/
def State.commitWaitOver (s : State) : Bool :=
  (s.pausedForSlot || s.hq.entries.all fun e =>
      !(decide (e.stamp = s.oc.serialAt 1) && (decide (e.capture = .notConsidered) || decide (e.capture = .waiting))))
    && s.ce.allFree

/-- The capture bar is set on level 1's serial (R53, R55, R77). -/
def State.setBar (s : State) : State := { s with oc := { s.oc with bar := some (s.oc.serialAt 1) } }

/-- The commit wait ends, and the OC asks for the anchor (R54). -/
def State.commitWaitEnds (s : State) : Option State :=
  if s.oc.phase = .commitWait ∧ s.commitWaitOver then
    let t := s.setBar
    some ({ t with oc := { t.oc with phase := .commitAnchor } }.queueWrite (.anchor .commit))
  else none

/-- COMMIT_WAIT_END. -/
def execCommitWaitEnd (s : State) : Out := claim State.commitWaitEnds s

/-- The anchor of an outermost COMMIT is complete (R54). -/
def State.committed (s : State) : State :=
  match s.oc.level 1 with
  | none => s.endOperation
  | some l =>
    let t := ({ s with oc := { s.oc with stack := [], stamp := 0, bar := none }, cf := [] }.restamp l.serial 0).stopTimer
    (t.raise .committed 1 .none l.serial l.captures).endOperation

/-! ## ROTATE and the timer (R43, R55 to R60) -/

/-- The checks of ROTATE, in order (R47). -/
def State.rotateChecks (s : State) : List (Bool × ResultCode) :=
  s.epochChecks ++ [(decide (s.oc.depth = 1), .depth), (decide (s.lc.nextSerial ≠ 0), .space)]

/-- A rotation starts with the successor serial taken (R55). -/
def State.startRotation (s : State) (serial : Word32) (origin : RotationOrigin) : State :=
  { s with oc := { s.oc with
      successor := some { serial, origin, marker := none }, stamp := serial, op := .rotating, phase := .rotateWait } }

/-- ROTATE as its owner takes it (R47, R55). -/
def State.rotate (s : State) : Reply :=
  match firstFailure s.rotateChecks with
  | some code => .refuse code
  | none =>
    match s.lc.takeSerial with
    | none => .refuse .space
    | some (serial, lc) => .done .accepted (bigEndian serial) ({ s with lc }.startRotation serial .command)

/-- ROTATE. -/
def execRotate (s : State) : Out := command State.rotate s

/-- A rotation started by the timer, or not started for want of a serial (R43, R55). -/
def State.timerRotation (s : State) : State :=
  match s.lc.takeSerial with
  | none => { s with oc := { s.oc with timer := none } }.raise .openFailed 1 .noSpace 0 2
  | some (serial, lc) => { s with lc }.startRotation serial .timer

/-- ONLINE, IDLE, depth 1: where a timer rotation may start (R59, R60). -/
def Controller.mayRotate (oc : Controller) : Bool :=
  decide (oc.mode = .online) && decide (oc.op = .idle) && decide (oc.depth = 1)

/-- The timer reaches zero: reloaded, and a rotation starts or is set pending (R58, R59). -/
def State.timerExpires (s : State) : Option State :=
  if s.oc.timer = some 0 then
    let t := s.startTimer
    if s.oc.rotationPending then some t
    else if s.oc.mayRotate then some t.timerRotation
    else if s.oc.mode = .online then some { t with oc := { t.oc with rotationPending := true } }
    else some t
  else none

/-- ROTATION_TIMER_EXPIRY. -/
def execRotationTimerExpiry (s : State) : Out := claim State.timerExpires s

/-- A pending rotation is taken (R60). -/
def State.takePendingRotation (s : State) : Option State :=
  if s.oc.rotationPending ∧ s.oc.mayRotate then
    some { s with oc := { s.oc with rotationPending := false } }.timerRotation
  else none

/-- PENDING_ROTATION_TAKEN. -/
def execPendingRotationTaken (s : State) : Out := claim State.takePendingRotation s

/-- The successor's marker slot is recorded (R45, R56). -/
def State.setSuccessorMarker (s : State) (slot : Nat) : State :=
  { s with oc := { s.oc with successor := s.oc.successor.map fun x => { x with marker := some slot } } }

/-- The rotation's wait ends: the free-slot form where a slot is free, else the no-slot form (R55 to R57). -/
def State.rotateWaitEnds (s : State) : Option State :=
  if s.oc.phase = .rotateWait ∧ s.commitWaitOver then
    let t := s.setBar
    match s.oc.successor with
    | none => none
    | some x =>
      if 1 ≤ s.freeSlots then
        let u := (t.reserve .marker 1 x.serial).setSuccessorMarker s.lc.head
        some ({ u with oc := { u.oc with phase := .rotateMarker } }.queueWrite (.openHeader s.lc.head))
      else some ({ t with oc := { t.oc with phase := .rotateFirstAnchor } }.queueWrite (.anchor .rotateFirst))
  else none

/-- ROTATE_WAIT_END. -/
def execRotateWaitEnd (s : State) : Out := claim State.rotateWaitEnds s

/-- Level 1 is replaced by the successor (R56 steps 2 to 5, R57 steps 2 to 5). -/
def State.replaceLevelOne (s : State) (serial : Word32) (start : Option Nat) : State :=
  let old := s.oc.serialAt 1
  { s with
    oc := { s.oc with
      stack := [{ serial, start, durable := start.isSome, broken := false, captures := 0 }]
      successor := none, bar := none }
    cf := [] }.restamp old 0

/-- The anchor of the free-slot form is complete (R56). -/
def State.rotated (s : State) (slot : Nat) : State :=
  match s.oc.successor with
  | none => s.endOperation
  | some x =>
    let t := (s.replaceLevelOne x.serial (some slot)).startTimer
    ({ t with oc := { t.oc with rotationPending := false } }.raise .rotated 1 .none x.serial
      (rotatedArgument x.origin)).endOperation

/-- The first anchor of the no-slot form is complete: level 1 is replaced and its marker asked for, which the empty
ring grants (R57). -/
def State.rotatedFirst (s : State) : State :=
  match s.oc.successor with
  | none => s.endOperation
  | some x =>
    let t := s.replaceLevelOne x.serial none
    let u := (t.reserve .marker 1 x.serial).setLevel 1 fun l => { l with start := some s.lc.head }
    { u with oc := { u.oc with phase := .rotateLateMarker x.origin } }.queueWrite (.openHeader s.lc.head)

end Sys2Proof.Machine
end

