-- ==== Sys2Proof/Machine/LogWrites.lean ====
section
/-! DEFINITION. The completions of the Log Controller's own writes: markers, VOID records, anchors (R30, R31, R36,
R39). -/

namespace Sys2Proof.Machine

/-- An OPEN header write completes OKAY (R31). -/
def State.markerWritten (s : State) : Option State :=
  match s.portOutcome (.okay 0) with
  | some (.lcOpen slot, t) => some (t.slotWritten slot).advanceMark
  | _ => none

/-- MARKER_WRITE_COMPLETE. -/
def execMarkerWriteComplete (s : State) : Out := claim State.markerWritten s

/-- An OPEN header write fails: its slot is voided (R31); nothing follows after an accepted DETACH (R150). -/
def State.markerWriteFails (f : MemFailure) (s : State) : Option State :=
  match s.portOutcome (.failed f) with
  | some (.lcOpen slot, t) => some (if s.oc.detaching then t else t.slotFailed slot f)
  | _ => none

/-- MARKER_WRITE_FAILED. -/
def execMarkerWriteFailed (f : MemFailure) (s : State) : Out := claim (State.markerWriteFails f) s

/-- A VOID header write completes OKAY: the entry is WRITTEN, marked voided, and the mark may advance (R30). -/
def State.voidWritten (s : State) : Option State :=
  match s.portOutcome (.okay 0) with
  | some (.lcVoid slot, t) => some (t.slotWritten slot).advanceMark
  | _ => none

/-- VOID_WRITE_COMPLETE. -/
def execVoidWriteComplete (s : State) : Out := claim State.voidWritten s

/-- A VOID header write fails: the log is dead, unless a DETACH has been accepted (R30, R39, R150). -/
def State.voidWriteFails (f : MemFailure) (s : State) : Option State :=
  match s.portOutcome (.failed f) with
  | some (.lcVoid _, t) => some (if s.oc.detaching then t else t.declareDead f)
  | _ => none

/-- VOID_WRITE_FAILED. -/
def execVoidWriteFailed (f : MemFailure) (s : State) : Out := claim (State.voidWriteFails f) s

/-- What the requester of an anchor does at its completion (R51, R54, R56, R57, R128, R132, R140, R141, R146). -/
def State.anchorDone (s : State) : AnchorOccasion → State
  | .attachKeep => s.attached .online 0
  | .formatA _ => s.queueWrite (.anchor .formatB)
  | .formatB => s.attached .online 2
  | .commit => s.committed
  | .openReclaim => s.endOperation
  | .rotateReclaim => s.endOperation
  | .rotateMarker slot _ => s.rotated slot
  | .rotateFirst => s.rotatedFirst
  | .rollback => s.rolledBack
  | .discard => ({ s with re := { s.re with stage := .idle } }.endOperation).raiseDiscarded
  | .recovery => s.recovered

/-- An anchor write completes OKAY (R36). -/
def State.anchorWritten (s : State) : Option State :=
  match s.portOutcome (.okay 0) with
  | some (.lcAnchor job, t) => some ((t.anchored job).anchorDone job.occasion)
  | _ => none

/-- ANCHOR_WRITE_COMPLETE. -/
def execAnchorWriteComplete (s : State) : Out := claim State.anchorWritten s

/-- What the LC holds of a copy. -/
def LogState.copyState (lc : LogState) : CopyName → AnchorCopy
  | .a => lc.copyA
  | .b => lc.copyB

/-- The copy whose write failed stands INVALID (R32). -/
def State.copyFailed (s : State) (name : CopyName) : State :=
  { s with lc := s.lc.setCopy name { s.lc.copyState name with standing := .invalid } }

/-- An anchor write fails (R36): the attach fails (R138), the log is dead (R39), or, after an accepted DETACH, only the
copy is INVALID (R150). -/
def State.anchorWriteFails (f : MemFailure) (s : State) : Option State :=
  match s.portOutcome (.failed f) with
  | some (.lcAnchor job, t) =>
    let u := t.copyFailed job.copy
    some
      (if s.oc.detaching then u
      else if s.oc.mode = .attaching then u.attachFails (failureCondition f)
      else u.declareDead f)
  | _ => none

/-- ANCHOR_WRITE_FAILED. -/
def execAnchorWriteFailed (f : MemFailure) (s : State) : Out := claim (State.anchorWriteFails f) s

end Sys2Proof.Machine
end

