-- ==== Sys2Proof/Machine/ResetLine.lean ====
section
/-! DEFINITION. The RESETn line: PIN_RESET, RESETN_RELEASE and a response that outlives a reset (R17, R61, R112, R152,
R163, R164, R187). -/

namespace Sys2Proof.Machine

/-- PIN_RESET: every block takes its reset values and whatever was in progress is abandoned; RESETn is low. The level of
CS and the commands still waiting in the queue are outside the part and stay (R175, log 3). -/
def execPinReset (s : State) : Out :=
  .next { State.reset with
    resetLow := true, pending := s.pending
    link := { Link.reset with csLow := s.link.csLow, unframed := s.link.unframed } }

/-- RESETN_RELEASE: the last level of the FAULT line is set to its present level, so that a line held active is no
assertion (R164); from here a fall of CS begins a frame (R175). -/
def execResetnRelease (faultActive : Bool) (s : State) : Out :=
  if s.resetLow then .next { s with resetLow := false, oc := { s.oc with faultLine := faultActive } } else .next s

/-- RESPONSE_TO_ABANDONED_REQUEST: discarded (R163). -/
def execResponseToAbandonedRequest (_r : MemReply) (s : State) : Out := .next s

end Sys2Proof.Machine
end

