-- ==== Sys2Proof/Machine/Upstream.lean ====
section
/-! DEFINITION. The master's requests and their completion: UPSTREAM_REQUEST, MASTER_READ_COMPLETE,
MASTER_WRITE_COMPLETE, MASTER_WRITE_FAILED (chapters 1 and 6). -/

namespace Sys2Proof.Machine

/-- A request presented in IDLE is received and decided at once (R2, R12); the port is ready in no other state. -/
def State.receive (r : MemRequest) (s : State) : Option State :=
  match s.up.state with
  | .idle =>
    some ({ s with up := { s.up with state := .stalled .situation r, received := s.up.received + 1 } }.decideRequest r)
  | .stalled _ _ => none
  | .readPending => none
  | .writePending => none

/-- UPSTREAM_REQUEST. -/
def execUpstreamRequest (r : MemRequest) (s : State) : Out := claim (State.receive r) s

/-- The answer of the master path's read (R3): OKAY with the 8 or 64 bytes read, or ERROR with the data lines zero. -/
def readResponse (isBlock : Bool) : MemReply → Response
  | .okay d => { okay := true, data := some (if isBlock then .block d else .word (d.extractLsb' 0 64)) }
  | .failed _ => { okay := false, data := some (if isBlock then .block 0 else .word 0) }

/-- The master path's read ends (R3, R158). -/
def State.readEnds (r : MemReply) (s : State) : Option State :=
  match s.portOutcome r with
  | some (.masterRead, t) =>
    match s.hq.read with
    | some p => some ({ t with hq := { t.hq with read := none } }.answer (readResponse p.isBlock r))
    | none => some t
  | _ => none

/-- MASTER_READ_COMPLETE. -/
def execMasterReadComplete (r : MemReply) (s : State) : Out := claim (State.readEnds r) s

/-- An entry leaves the hold queue. -/
def HoldQueue.remove (q : HoldQueue) (order : Nat) : HoldQueue :=
  { q with entries := q.entries.filter fun e => decide (e.order ≠ order) }

/-- The entry of this acceptance. -/
def HoldQueue.entry (q : HoldQueue) (order : Nat) : Option HoldEntry :=
  q.entries.find? fun e => decide (e.order = order)

/-- An issued write completes OKAY and leaves; a STRICT one is answered OKAY (R104). -/
def State.writeEnds (s : State) : Option State :=
  match s.portOutcome (.okay 0) with
  | some (.masterWrite order, t) =>
    match s.hq.entry order with
    | some e =>
      let u := { t with hq := t.hq.remove order }
      some (if e.acknowledged then u else u.answer .okayWrite)
    | none => some t
  | _ => none

/-- MASTER_WRITE_COMPLETE. -/
def execMasterWriteComplete (s : State) : Out := claim State.writeEnds s

/-- WRITE_LOST for a failed acknowledged write (R105). -/
def State.raiseWriteLost (s : State) (e : HoldEntry) (c : Condition) : State :=
  s.raise .writeLost ((s.oc.levelOf e.stamp).getD 0) c e.stamp e.addr

/-- An issued write fails after its retries and leaves: ERROR for STRICT, WRITE_LOST for POSTED (R105). -/
def State.writeFails (f : MemFailure) (s : State) : Option State :=
  match s.portOutcome (.failed f) with
  | some (.masterWrite order, t) =>
    match s.hq.entry order with
    | some e =>
      let u := { t with hq := t.hq.remove order }
      some (if e.acknowledged then u.raiseWriteLost e (failureCondition f) else u.answer .error)
    | none => some t
  | _ => none

/-- MASTER_WRITE_FAILED. -/
def execMasterWriteFailed (f : MemFailure) (s : State) : Out := claim (State.writeFails f) s

end Sys2Proof.Machine
end

