-- ==== Sys2Proof/Machine/Dispatch.lean ====
section
/-! DEFINITION. One arm per command: the meaning of each. -/

namespace Sys2Proof.Machine

/-- The effect of a command on everything but the queue of commands waiting. -/
def exec (i : Instr) (s : State) : Host.Outcome State Fault Refusal :=
  match i with
  | .pinReset => Sys2Proof.Machine.execPinReset s
  | .faultAssertion => Sys2Proof.Machine.execFaultAssertion s
  | .faultDeassertion => Sys2Proof.Machine.execFaultDeassertion s
  | .upstreamRequest r => Sys2Proof.Machine.execUpstreamRequest r s
  | .nop => Sys2Proof.Machine.execNop s
  | .status => Sys2Proof.Machine.execStatus s
  | .event => Sys2Proof.Machine.execEvent s
  | .level k => Sys2Proof.Machine.execLevel k s
  | .setwin index base limit mode => Sys2Proof.Machine.execSetwin index base limit mode s
  | .clrwin index => Sys2Proof.Machine.execClrwin index s
  | .setlog base slots => Sys2Proof.Machine.execSetlog base slots s
  | .setoptWriteMode value => Sys2Proof.Machine.execSetoptWriteMode value s
  | .setoptRetryLimit value => Sys2Proof.Machine.execSetoptRetryLimit value s
  | .setoptLogFullPolicy value => Sys2Proof.Machine.execSetoptLogFullPolicy value s
  | .setoptHighWaterMark value => Sys2Proof.Machine.execSetoptHighWaterMark value s
  | .setoptFaultPolicy value => Sys2Proof.Machine.execSetoptFaultPolicy value s
  | .setoptRotationPeriod value => Sys2Proof.Machine.execSetoptRotationPeriod value s
  | .attachKeep arg => Sys2Proof.Machine.execAttachKeep arg s
  | .attachFormat => Sys2Proof.Machine.execAttachFormat s
  | .recover => Sys2Proof.Machine.execRecover s
  | .detach => Sys2Proof.Machine.execDetach s
  | .openEpoch => Sys2Proof.Machine.execOpenEpoch s
  | .commit => Sys2Proof.Machine.execCommit s
  | .rotate => Sys2Proof.Machine.execRotate s
  | .rollback j => Sys2Proof.Machine.execRollback j s
  | .abort => Sys2Proof.Machine.execAbort s
  | .resume => Sys2Proof.Machine.execResume s
  | .discard => Sys2Proof.Machine.execDiscard s
  | .thaw => Sys2Proof.Machine.execThaw s
  | .frameError bytes => Sys2Proof.Machine.execFrameError bytes s
  | .rotationTimerExpiry => Sys2Proof.Machine.execRotationTimerExpiry s
  | .pendingRotationTaken => Sys2Proof.Machine.execPendingRotationTaken s
  | .faultLatchTaken => Sys2Proof.Machine.execFaultLatchTaken s
  | .consideration => Sys2Proof.Machine.execConsideration s
  | .downstreamGrant first => Sys2Proof.Machine.execDownstreamGrant first s
  | .downstreamReissue f => Sys2Proof.Machine.execDownstreamReissue f s
  | .masterReadComplete r => Sys2Proof.Machine.execMasterReadComplete r s
  | .masterWriteComplete => Sys2Proof.Machine.execMasterWriteComplete s
  | .masterWriteFailed f => Sys2Proof.Machine.execMasterWriteFailed f s
  | .captureReadComplete data => Sys2Proof.Machine.execCaptureReadComplete data s
  | .capturePayloadWriteComplete => Sys2Proof.Machine.execCapturePayloadWriteComplete s
  | .captureHeaderWriteComplete => Sys2Proof.Machine.execCaptureHeaderWriteComplete s
  | .captureRequestFailed f => Sys2Proof.Machine.execCaptureRequestFailed f s
  | .markerWriteComplete => Sys2Proof.Machine.execMarkerWriteComplete s
  | .markerWriteFailed f => Sys2Proof.Machine.execMarkerWriteFailed f s
  | .voidWriteComplete => Sys2Proof.Machine.execVoidWriteComplete s
  | .voidWriteFailed f => Sys2Proof.Machine.execVoidWriteFailed f s
  | .anchorWriteComplete => Sys2Proof.Machine.execAnchorWriteComplete s
  | .anchorWriteFailed f => Sys2Proof.Machine.execAnchorWriteFailed f s
  | .anchorReadComplete r => Sys2Proof.Machine.execAnchorReadComplete r s
  | .tailReadComplete r => Sys2Proof.Machine.execTailReadComplete r s
  | .replayReadComplete r => Sys2Proof.Machine.execReplayReadComplete r s
  | .restoreWriteComplete r => Sys2Proof.Machine.execRestoreWriteComplete r s
  | .scanReadComplete r => Sys2Proof.Machine.execScanReadComplete r s
  | .recoveryReadComplete r => Sys2Proof.Machine.execRecoveryReadComplete r s
  | .recoveryRestoreComplete r => Sys2Proof.Machine.execRecoveryRestoreComplete r s
  | .attachDrainEnd => Sys2Proof.Machine.execAttachDrainEnd s
  | .orderingWaitEnd => Sys2Proof.Machine.execOrderingWaitEnd s
  | .commitWaitEnd => Sys2Proof.Machine.execCommitWaitEnd s
  | .rotateWaitEnd => Sys2Proof.Machine.execRotateWaitEnd s
  | .settlingEnd => Sys2Proof.Machine.execSettlingEnd s
  | .detachComplete => Sys2Proof.Machine.execDetachComplete s
  | .resetnRelease faultActive => Sys2Proof.Machine.execResetnRelease faultActive s
  | .frameBegin => Sys2Proof.Machine.execFrameBegin s
  | .setoptUnknownOption id value => Sys2Proof.Machine.execSetoptUnknownOption id value s
  | .responseToAbandonedRequest r => Sys2Proof.Machine.execResponseToAbandonedRequest r s

end Sys2Proof.Machine
end

