-- ==== Sys2Proof/Machine/Step.lean ====
section
/-! DEFINITION. One step of the part: the command at the front of the queue is taken, or, where none waits, one
millisecond passes. -/

namespace Sys2Proof.Machine

/-- One millisecond with no command waiting (log 2): a RUNNING rotation timer counts down, and on reaching zero its
expiry becomes a claim (R58, R59). Nothing else is driven by time. -/
def State.tick (s : State) : State :=
  match s.oc.timer with
  | none => s
  | some 0 => { s with pending := [.rotationTimerExpiry] }
  | some (remaining + 1) =>
    { s with
      oc := { s.oc with timer := some remaining }
      pending := if remaining = 0 then [.rotationTimerExpiry] else [] }

/-- One step. -/
def step (s : State) : Host.Outcome State Fault Refusal :=
  match s.pending with
  | [] => .next s.tick
  | c :: rest => exec c { s with pending := rest }

/-- The state with the command a table word spells put at the front of its queue; unchanged where it spells none. -/
def State.withFetchWord (s : State) (nbits w : Nat) : State :=
  match decodeTableWord nbits w with
  | none => s
  | some c => { s with pending := c :: s.pending }

end Sys2Proof.Machine
end

