-- ==== Sys2Proof/Safety.lean ====
section
/-! DEFINITION. The terms in which statements speak of the machine: what a step leaves alone, when the link and the part
take commands, and the invariants that every step keeps. -/

namespace Sys2Proof.Machine

/-! ## Frames -/

/-- The parts of the state a frame speaks of; the downstream port in three. -/
inductive Part where
  | resetLow | up | windows | log | lc | hq | cf | ce | oc | re | port | fairness | calm | eq | link | opts | pending
  deriving DecidableEq, Repr

/-- The part is the same before and after. -/
abbrev Part.same (s t : State) : Part → Prop
  | .resetLow => t.resetLow = s.resetLow
  | .up => t.up = s.up
  | .windows => t.windows = s.windows
  | .log => t.log = s.log
  | .lc => t.lc = s.lc
  | .hq => t.hq = s.hq
  | .cf => t.cf = s.cf
  | .ce => t.ce = s.ce
  | .oc => t.oc = s.oc
  | .re => t.re = s.re
  | .port => t.dp.port = s.dp.port
  | .fairness => t.dp.fairness = s.dp.fairness
  | .calm => t.dp.calm = s.dp.calm
  | .eq => t.eq = s.eq
  | .link => t.link = s.link
  | .opts => t.opts = s.opts
  | .pending => t.pending = s.pending

/-- Nothing changes but the parts listed. -/
def OnlyChanges (changed : List Part) (s t : State) : Prop := ∀ p : Part, p ∉ changed → p.same s t

/-! ## When commands are taken, and what follows at once -/

/-- RESETn is released. -/
abbrev State.running (s : State) : Prop := s.resetLow = false

/-- RESETn is released and a frame is in progress: the link takes the frame's command at CS rise (R176). -/
abbrev State.linked (s : State) : Prop := s.resetLow = false ∧ s.link.frame ≠ none

/-- The link once CS has risen and the frame has been decided with this result (R175 to R177). -/
abbrev Link.showing (l : Link) (code : ResultCode) (data : List Byte) : Link :=
  { l with result := { code := code, data := data }, frame := none, csLow := false }

/-- The port's request is `o`'s, and the response `r` ends it: OKAY, or a failure that brings the count to the limit
(R156). -/
abbrev State.endsWith (s : State) (o : Owner) (r : MemReply) : Prop :=
  ∃ a, s.dp.port = some a ∧ a.owner = o ∧ ∀ f, r = .failed f → a.limit ≤ a.failures + 1

/-- The port idle, the rest of it as it stands (R155). -/
abbrev DownstreamPort.freed (d : DownstreamPort) : DownstreamPort := { d with port := none }

/-- No request is stalled at the upstream port. -/
abbrev UpstreamPort.unstalled (up : UpstreamPort) : Prop := ∀ reason r, up.state ≠ .stalled reason r

/-- The port's answer to the request it holds (R2, R3). -/
abbrev UpstreamPort.answered (up : UpstreamPort) (okay : Bool) (data : Option ReadData) : UpstreamPort :=
  { up with state := .idle, answers := up.answers ++ [{ okay := okay, data := data }] }

/-- What follows at once has followed: no context stays in ORDER_WAIT without an older HELD write to its block (R83),
and the fairness count is 0 unless the master path's request stands (R160). -/
abbrev State.quiet (s : State) : Prop :=
  (∀ c ∈ s.ce.contexts, ∀ x ∈ c, x.state = .orderWait →
    ∃ e ∈ s.hq.entries, e.issued = false ∧ e.block = x.block ∧ e.order < x.trigger)
  ∧ (s.masterStands = false → s.dp.fairness = 0)

/-- The durable mark past the first reservation `r`, whose request has just ended: the port free, the reservation gone,
the context of its slot free, and the writes that depended on the slot FREE (R29, R86, R96). -/
abbrev State.markPassed (s : State) (r : Reservation) (rest : List Reservation) : State :=
  { s with
    dp := s.dp.freed
    lc := { s.lc with reservations := rest, durable := s.lc.durable + 1 }
    ce := { s.ce with contexts := s.ce.contexts.map fun x => x.filter fun y => decide (y.slot ≠ r.slot) }
    hq := { s.hq with
      entries := s.hq.entries.map fun e => if e.capture = .depends r.slot then { e with capture := .free } else e } }

/-- The full period a start gives the rotation timer; period 0 leaves it STOPPED (R58). -/
abbrev Options.fullPeriod (o : Options) : Option Nat := if o.rotationPeriod = 0 then none else some o.rotationPeriod

/-- The sum of two capture counts, saturating at FFFFFFFFH (R42). -/
abbrev addCaptures (a b : Word32) : Word32 := if a.toNat + b.toNat < 2 ^ 32 then a + b else 0xFFFFFFFF#32

/-! ## Invariants -/

/-- A request stands stalled for SITUATION only where its treatment is stall, and one stalled for QUEUE is a write to be
held (R2, R12, R14, R15). -/
abbrev State.stallsJustified (s : State) : Prop :=
  match s.up.state with
  | .stalled .situation r => treatment s.oc.mode s.oc.op (s.classify r) r.isWrite = .stall
  | .stalled .queue r => r.isWrite = true ∧ treatment s.oc.mode s.oc.op (s.classify r) r.isWrite = .take
  | .idle => True
  | .readPending => True
  | .writePending => True

/-- The bounds of the event queue (R183) and of the hold queue (R97). -/
abbrev State.queuesBounded (s : State) : Prop :=
  s.eq.records.length ≤ 16 ∧ s.eq.lost ≤ 255 ∧ s.hq.entries.length ≤ 8
  ∧ (s.opts.writeMode = .strict → s.hq.entries.length ≤ 1)

/-- Requests the port holds. -/
def UpstreamPort.outstanding (up : UpstreamPort) : Nat :=
  match up.state with
  | .idle => 0
  | .stalled _ _ => 1
  | .readPending => 1
  | .writePending => 1

/-- Every request received has been answered once, but for the one the port holds (R2, R3). -/
abbrev State.answersCounted (s : State) : Prop := s.up.received = s.up.answers.length + s.up.outstanding

/-- A window as SETWIN leaves it (R6, R7). -/
abbrev Window.wellFormed (w : Window) : Prop :=
  w.valid = true →
    w.base.toNat % 0x1000 = 0 ∧ w.limit.toNat % 0x1000 = 0 ∧ w.base.toNat < w.limit.toNat ∧ w.limit.toNat ≤ 0x100000000

/-- Two valid windows share no byte (R7). -/
abbrev Window.apart (w x : Window) : Prop :=
  w.valid = true → x.valid = true → w.limit.toNat ≤ x.base.toNat ∨ x.limit.toNat ≤ w.base.toNat

/-- The log configuration of R18, inside the address space (R19). -/
abbrev LogConfig.wellFormed (g : LogConfig) : Prop :=
  g.slots = 0 ∨ (64 ≤ g.slots ∧ g.slots ≤ 1048576 ∧ g.base.toNat % 0x1000 = 0 ∧ g.areaEnd ≤ 0x100000000)

/-- The window shares no byte with a configured log area (R7, R19). -/
abbrev Window.apartFrom (g : LogConfig) (w : Window) : Prop :=
  w.valid = true → g.slots = 0 ∨ w.limit.toNat ≤ g.base.toNat ∨ g.areaEnd ≤ w.base.toNat

/-- Eight windows, each in range, and no byte in two windows or in a window and the log area (R4, R6, R7, R18, R19). -/
abbrev State.mapDisjoint (s : State) : Prop :=
  s.windows.length = 8 ∧ (∀ w ∈ s.windows, w.wellFormed) ∧ s.windows.Pairwise Window.apart ∧ s.log.wellFormed
  ∧ ∀ w ∈ s.windows, w.apartFrom s.log

/-- No block has two entries, and the entries of a set stand in different ways 0 to 3 (R62, R63). -/
abbrev State.filterOrderly (s : State) : Prop :=
  (s.cf.map FilterEntry.block).Nodup ∧ (∀ e ∈ s.cf, e.way < 4)
  ∧ s.cf.Pairwise fun e f => filterSet e.block = filterSet f.block → e.way ≠ f.way

/-- The mode is ONLINE or FENCED: where epochs, captures and rollbacks live. -/
def Controller.active (oc : Controller) : Bool := decide (oc.mode = .online) || decide (oc.mode = .fenced)

/-- The modes in which an anchor of this occasion is written (R34). -/
def AnchorOccasion.fits (oc : Controller) : AnchorOccasion → Bool
  | .attachKeep => decide (oc.mode = .attaching)
  | .formatA _ => decide (oc.mode = .attaching)
  | .formatB => decide (oc.mode = .attaching)
  | .recovery => decide (oc.mode = .recovering)
  | .commit => oc.active
  | .openReclaim => oc.active
  | .rotateReclaim => oc.active
  | .rotateMarker _ _ => oc.active
  | .rotateFirst => oc.active
  | .rollback => oc.active
  | .discard => oc.active

/-- The modes in which the LC makes this write. -/
def LogWrite.fits (oc : Controller) : LogWrite → Bool
  | .openHeader _ => oc.active
  | .voidHeader _ => oc.active
  | .anchor o => o.fits oc

/-- The modes in which the port carries this request. -/
def Owner.fits (oc : Controller) : Owner → Bool
  | .lcOpen _ => oc.active
  | .lcVoid _ => oc.active
  | .lcAnchor job => job.occasion.fits oc
  | .lcReadA => decide (oc.mode = .attaching)
  | .lcReadB _ => decide (oc.mode = .attaching)
  | .lcTailHeader => decide (oc.mode = .attaching)
  | .lcTailPayload _ => decide (oc.mode = .attaching)
  | .re => oc.active || decide (oc.mode = .recovering)
  | .ce _ _ => oc.active
  | .masterWrite _ => true
  | .masterRead => true

/-- The request is an anchor write. -/
def Owner.isAnchor : Owner → Bool
  | .lcAnchor _ => true
  | .lcOpen _ => false
  | .lcVoid _ => false
  | .lcReadA => false
  | .lcReadB _ => false
  | .lcTailHeader => false
  | .lcTailPayload _ => false
  | .re => false
  | .ce _ _ => false
  | .masterWrite _ => false
  | .masterRead => false

/-- The port carries a request of the LC. -/
def State.lcInFlight (s : State) : Bool := s.dp.port.any fun a => decide (a.owner.requester = .lc)

/-- The port carries an anchor write. -/
def State.anchorInFlight (s : State) : Bool := s.dp.port.any fun a => a.owner.isAnchor

/-- The stage the restore engine may be in, by mode and operation (R46, R113, R135, R142). -/
abbrev State.stageFits (s : State) : Prop :=
  (s.oc.mode = .offline ∨ s.oc.mode = .attaching ∨ s.oc.mode = .suspect → s.re.stage = .idle)
  ∧ (s.oc.mode = .recovering → s.re.purpose = .recovery ∧ s.re.stage ≠ .idle ∧ s.re.stage ≠ .settling)
  ∧ (s.oc.active = true → s.re.stage ≠ .scanning ∧ (s.re.stage ≠ .idle → s.re.purpose ≠ .recovery))
  ∧ (s.oc.op = .rolling ∨ s.oc.op = .halted → s.re.stage ≠ .idle)

/-- What the LC has to do in an attach is one thing at a time (R137 to R141). -/
abbrev State.attachFits (s : State) : Prop :=
  s.oc.mode = .attaching →
    s.lc.writes.length ≤ 1
    ∧ (s.lc.attachRead ≠ .none → s.lc.writes = [])
    ∧ (s.anchorInFlight = true → s.lc.writes = [] ∧ s.lc.attachRead = .none)
    ∧ (s.lcInFlight = true → s.anchorInFlight = false → s.lc.attachRead ≠ .none)
    ∧ ((s.oc.attach.any fun a => decide (a.phase = .draining)) = true →
        s.lc.writes = [] ∧ s.lc.attachRead = .none ∧ s.lcInFlight = false)

/-- In a recovery the LC has at most the final anchor to write (R146). -/
abbrev State.recoveryFits (s : State) : Prop :=
  s.oc.mode = .recovering →
    s.lc.writes.length ≤ 1
    ∧ (s.re.stage ≠ .anchoring → s.lc.writes = [] ∧ s.lcInFlight = false)
    ∧ (s.lcInFlight = true → s.lc.writes = [])

/-- Outside ONLINE and FENCED the operation state is IDLE, the depth is 0 and no capture runs (R46, R135). -/
abbrev State.idleOutside (s : State) : Prop :=
  s.oc.active = false →
    s.oc.op = .idle ∧ s.oc.phase = .none ∧ s.oc.stack = [] ∧ s.oc.successor = none ∧ s.lc.reservations = []
    ∧ ∀ c ∈ s.ce.contexts, c = none

/-- What the mode promises of the controller, the log and the hold queue: an attach only in ATTACHING (R137), a fence
reason only in FENCED (R169), operations only in ONLINE and FENCED (R135), and outside OFFLINE a configured log with no
HELD write to it (R10, R137). -/
abbrev State.modeFits (s : State) : Prop :=
  (s.oc.attach = none ↔ s.oc.mode ≠ .attaching)
  ∧ (s.oc.fence = .none ↔ s.oc.mode ≠ .fenced)
  ∧ s.idleOutside
  ∧ (s.oc.mode ≠ .offline → s.log.slots ≠ 0)
  ∧ (s.oc.mode ≠ .offline → ∀ e ∈ s.hq.entries, e.cls = .log → e.issued = true)

/-- The requests queued and in flight are those the mode allows (R34, R137 to R146). -/
abbrev State.requestsFit (s : State) : Prop :=
  s.stageFits
  ∧ (∀ w ∈ s.lc.writes, w.fits s.oc = true)
  ∧ (s.dp.port.all fun a => a.owner.fits s.oc) = true
  ∧ (s.lc.attachRead ≠ .none → s.oc.mode = .attaching)
  ∧ s.attachFits
  ∧ s.recoveryFits

/-- What the mode promises, as a whole. -/
abbrev State.orderly (s : State) : Prop := s.modeFits ∧ s.requestsFit

/-- Every valid filter entry stands at a level of the stack, one whose marker is durable (R45, R63, R77). -/
abbrev State.filterLevelsFit (s : State) : Prop :=
  ∀ e ∈ s.cf, 1 ≤ e.level ∧ ∃ l, s.oc.stack[e.level - 1]? = some l ∧ l.durable = true

/-- The operation state that goes with each phase of an OPEN, COMMIT or ROTATE (R46). -/
def OpPhase.operation : OpPhase → Option OpState
  | .none => Option.none
  | .openWait => some .opening
  | .openMarker => some .opening
  | .openReclaim _ => some .opening
  | .commitWait => some .committing
  | .commitAnchor => some .committing
  | .rotateWait => some .rotating
  | .rotateMarker => some .rotating
  | .rotateAnchor => some .rotating
  | .rotateFirstAnchor => some .rotating
  | .rotateLateMarker _ => some .rotating
  | .rotateReclaim => some .rotating

/-- The point of its operation at which an anchor of this occasion is asked for (R34). -/
abbrev AnchorOccasion.awaited (s : State) : AnchorOccasion → Prop
  | .attachKeep => True
  | .formatA _ => True
  | .formatB => True
  | .recovery => True
  | .commit => s.oc.phase = .commitAnchor
  | .openReclaim => ∃ serial, s.oc.phase = .openReclaim serial
  | .rotateReclaim => s.oc.phase = .rotateReclaim
  | .rotateMarker _ _ => s.oc.phase = .rotateAnchor
  | .rotateFirst => s.oc.phase = .rotateFirstAnchor
  | .rollback => s.oc.op = .rolling ∧ s.re.stage = .anchoring
  | .discard => s.oc.op = .halted ∧ s.re.stage = .anchoring

/-- The anchors queued and in flight. -/
def State.anchorsDue (s : State) : List AnchorOccasion :=
  (s.dp.port.toList.filterMap fun a => match a.owner with | .lcAnchor job => some job.occasion | _ => none)
  ++ s.lc.writes.filterMap fun w => match w with | .anchor o => some o | _ => none

/-- The marker slots reserved and not yet passed. -/
def State.markersDue (s : State) : List Reservation := s.lc.reservations.filter fun r => decide (r.purpose = .marker)

/-- The stack as the operation leaves it: every level's marker is durable, but for the level an OPEN or a no-slot
rotation is at work on, the innermost (R40, R48, R57). -/
abbrev State.markersFit (s : State) : Prop :=
  match s.oc.phase with
  | .openWait => ∃ base l, s.oc.stack = base ++ [l] ∧ l.durable = false ∧ ∀ x ∈ base, x.durable = true
  | .openMarker => ∃ base l, s.oc.stack = base ++ [l] ∧ l.durable = false ∧ ∀ x ∈ base, x.durable = true
  | .rotateLateMarker _ => ∃ l, s.oc.stack = [l] ∧ l.durable = false
  | _ => ∀ x ∈ s.oc.stack, x.durable = true

/-- One operation at a time, each thing it has asked for its own: the phase goes with the operation state, the restore
stage with a rollback, and at most one anchor and one marker are due, those the operation waits for (R28, R34, R46,
R113). -/
abbrev State.operationFits (s : State) : Prop :=
  (if s.oc.phase = .none then s.oc.op ∉ [OpState.opening, .committing, .rotating]
    else s.oc.phase.operation = some s.oc.op)
  ∧ s.markersFit
  ∧ (s.oc.active = true →
      (s.re.stage = .settling ∨ s.re.stage = .replaying → s.oc.op = .rolling)
      ∧ (s.re.stage = .anchoring → s.oc.op = .rolling ∨ s.oc.op = .halted)
      ∧ (s.re.stage = .halted → s.oc.op = .halted ∨ s.oc.op = .detaching))
  ∧ s.anchorsDue.length ≤ 1 ∧ (∀ o ∈ s.anchorsDue, o.awaited s)
  ∧ s.markersDue.length ≤ 1
  ∧ ∀ r ∈ s.markersDue,
      s.oc.phase = .openMarker ∧ r.level = s.oc.stack.length ∨ s.oc.phase = .rotateMarker
      ∨ ∃ origin, s.oc.phase = .rotateLateMarker origin

/-- A frame is in progress only while CS is low and RESETn released (R175). -/
abbrev State.frameFits (s : State) : Prop := s.link.frame ≠ none → s.link.csLow = true ∧ s.resetLow = false

/-- The epoch stack of R40: at most 6 levels, serials not 0 and strictly rising from level 1 inward, and every serial in
use, the successor's too, below the next serial unless the supply is used up (R25, R43). -/
abbrev State.stackOrdered (s : State) : Prop :=
  s.oc.stack.length ≤ 6
  ∧ (s.oc.stack.Pairwise fun l m => l.serial.toNat < m.serial.toNat)
  ∧ (∀ l ∈ s.oc.stack, l.serial ≠ 0 ∧ (s.lc.nextSerial ≠ 0 → l.serial.toNat < s.lc.nextSerial.toNat))
  ∧ (∀ x ∈ s.oc.successor, x.serial ≠ 0 ∧ (s.lc.nextSerial ≠ 0 → x.serial.toNat < s.lc.nextSerial.toNat))

/-- The durable mark lies no farther from tail than head, and head no farther than the ring is long (R26); a scan that
runs, or may be resumed, has slots left (R143, R144). -/
abbrev State.ringBounded (s : State) : Prop :=
  s.lc.durable ≤ s.lc.live
  ∧ s.lc.live ≤ s.log.slots
  ∧ (s.re.stage = .scanning ∨ (s.oc.mode = .recovering ∧ s.re.stage = .halted ∧ s.re.resumeScanning = true) →
      s.re.scanned < s.log.slots)
  ∧ (s.oc.mode = .recovering → s.re.stage = .replaying → s.re.resumeScanning = false)

end Sys2Proof.Machine
end

