-- ==== Sys2Proof/Certificates/Slice0/Obligations.lean ====
section
/-! DEFINITION. The statements for the provers: what each command does, in which order its checks stand, and what every
step keeps. "The model's" marks a clause that rests on a log entry and not on the spec. The fields `received`,
`answers`, `phase`, `attachRead`, `handling`, `popped`, `resumeScanning`, `detaching`, `calm`, `unframed` and a
context's `bytes` are the model's own names for what the rules imply (log 5, 10, 11, 17, 31). -/

open Sys2Proof Sys2Proof.Machine

/-! ## The step, reset, and what follows at once -/

/-- A step takes the command at the front of the queue and runs it on the queue's rest. -/
def Obligations.StepRunsFrontCommand : Prop :=
  ∀ (s : State) (c : Instr) (rest : List Instr), s.pending = c :: rest → step s = exec c { s with pending := rest }

/-- With no command waiting a step is one millisecond of the rotation timer (the model's, log 2): a RUNNING timer counts
down (R58), and at zero its expiry becomes a claim. -/
def Obligations.IdleStepIsOneMillisecond : Prop :=
  ∀ s : State, s.pending = [] →
    (s.oc.timer = none → step s = .next s)
    ∧ (s.oc.timer = some 0 → step s = .next { s with pending := [.rotationTimerExpiry] })
    ∧ ∀ n, s.oc.timer = some (n + 1) →
        step s = .next { s with
          oc := { s.oc with timer := some n }
          pending := if n = 0 then [.rotationTimerExpiry] else [] }

/-- The values after reset, with CS high (the model's, log 3) (R6, R17, R18, R26, R61, R62, R74, R77, R94, R95, R112,
R113, R135, R155, R160, R166, R169, R180, R187), and the invariants hold there. -/
def Obligations.ResetValues : Prop :=
  let r := State.reset
  (r.up.state = .idle
    ∧ r.windows = List.replicate 8 { valid := false, base := 0, limit := 0, mode := .pass }
    ∧ r.log = { base := 0, slots := 0 })
  ∧ (r.lc.tail = 0 ∧ r.lc.tailSequence = 0 ∧ r.lc.head = 0 ∧ r.lc.live = 0 ∧ r.lc.durable = 0 ∧ r.lc.nextSequence = 0
    ∧ r.lc.session = 0 ∧ r.lc.nextSerial = 0 ∧ r.lc.copyA = { standing := .unknown, generation := 0 }
    ∧ r.lc.copyB = { standing := .unknown, generation := 0 } ∧ r.lc.reservations = [] ∧ r.lc.writes = []
    ∧ r.lc.armed = true ∧ r.lc.dead = false)
  ∧ (r.hq.entries = [] ∧ r.hq.nextOrder = 0 ∧ r.hq.read = none ∧ r.cf = [] ∧ r.ce.contexts = [none, none, none, none]
    ∧ r.ce.episode = false)
  ∧ (r.oc.mode = .offline ∧ r.oc.op = .idle ∧ r.oc.stack = [] ∧ r.oc.stamp = 0 ∧ r.oc.successor = none ∧ r.oc.bar = none
    ∧ r.oc.latch = false ∧ r.oc.fence = .none ∧ r.oc.timer = none ∧ r.oc.rotationPending = false ∧ r.oc.attach = none)
  ∧ (r.re.stage = .idle ∧ r.re.purpose = .rollback ∧ r.re.origin = .command ∧ r.re.fromFreeze = false ∧ r.re.target = 1
    ∧ r.re.targetSerial = 0 ∧ r.re.cursor = 0 ∧ r.re.restored = 0 ∧ r.re.abortRequested = false
    ∧ r.re.haltCondition = .none ∧ r.re.rangeBreak = .none ∧ r.re.scanned = 0 ∧ r.re.opens = 0 ∧ r.re.highest = 0)
  ∧ (r.dp.port = none ∧ r.dp.fairness = 0 ∧ r.eq = { records := [], lost := 0 } ∧ r.attn = false
    ∧ r.link = { result := { code := .ok, data := [] }, frame := none, csLow := false, unframed := 0 }
    ∧ r.opts = { writeMode := .strict, retryLimit := 4, logFull := .stall, highWater := 0, faultPolicy := .all,
                 rotationPeriod := 0 })
  ∧ (r.queuesBounded ∧ r.answersCounted ∧ r.mapDisjoint ∧ r.filterOrderly ∧ r.orderly ∧ r.stackOrdered ∧ r.ringBounded
    ∧ r.quiet ∧ r.stallsJustified ∧ r.operationFits ∧ r.filterLevelsFit ∧ r.frameFits)

/-- Pin reset abandons everything: reset values in every block, no answer and no event (R112, R163, R187); the level of
CS and the commands still waiting outside the part stay (the model's, log 3). While RESETn is low nothing but a further
PIN_RESET, the release and a change of CS has an effect, and a fall of CS begins no frame (R164, R175, R187; log 3,
19); the release only takes the FAULT line's level (R164), and a response to an abandoned request is discarded (R163).
-/
def Obligations.ResetLineAbandonsEverything : Prop :=
  (∀ (s : State) (faultActive : Bool) (r : MemReply),
    exec .pinReset s = .next { State.reset with
      resetLow := true, pending := s.pending
      link := { State.reset.link with csLow := s.link.csLow, unframed := s.link.unframed } }
    ∧ (s.resetLow = true → exec (.resetnRelease faultActive) s =
        .next { s with resetLow := false, oc := { s.oc with faultLine := faultActive } })
    ∧ exec (.responseToAbandonedRequest r) s = .next s)
  ∧ ∀ (c : Instr) (s : State), s.resetLow = true → c ≠ .pinReset → (∀ b, c ≠ .resetnRelease b) →
    let endsFrame := encodeFrame c ≠ none ∨ ∃ bytes, c = .frameError bytes
    (c = .frameBegin → s.link.csLow = false →
      exec c s = .next { s with link := { s.link with csLow := true, frame := none } })
    ∧ (endsFrame → s.link.csLow = true →
      exec c s = .next { s with link := { s.link with csLow := false, unframed := s.link.unframed + 1 } })
    ∧ ((c = .frameBegin → s.link.csLow = true) → (endsFrame → s.link.csLow = false) → exec c s = .next s)

/-- No command stops the part: each answers a next state, in every state and with every operand. -/
def Obligations.EveryCommandAnswersNext : Prop := ∀ (c : Instr) (s : State), ∃ t, exec c s = .next t

/-- What follows at once from a step that took `before` to `after`: a stalled request is decided again where the
situation changed, or where it waits for an entry and one has left (R14, R15); contexts whose order wait has ended
enter READING (R83); a withdrawn master path loses its fairness count (R160). Nothing else changes, and where no
request is stalled and `after` is quiet nothing but the mark of log 17. -/
def Obligations.FollowUpsOfAStep : Prop :=
  ∀ before after : State,
    OnlyChanges [.up, .hq, .ce, .fairness, .calm] after (finish before after)
    ∧ (after.up.unstalled → OnlyChanges [.ce, .fairness, .calm] after (finish before after))
    ∧ (after.up.unstalled → after.quiet → OnlyChanges [.calm] after (finish before after))
    ∧ (∀ reason r, after.up.state = .stalled reason r →
        if before.situation ≠ after.situation
            ∨ (reason = .queue ∧ after.hq.entries.length < before.hq.entries.length) then
          (finish before after).up = (after.decideRequest r).up ∧ (finish before after).hq = (after.decideRequest r).hq
        else OnlyChanges [.ce, .fairness, .calm] after (finish before after))
    ∧ (finish before after).ce.contexts =
        after.ce.contexts.map (Option.map fun c =>
          if c.state = .orderWait ∧ ∀ e ∈ (finish before after).hq.entries,
              e.issued = true ∨ e.block ≠ c.block ∨ c.trigger ≤ e.order then { c with state := .reading } else c)
    ∧ (finish before after).dp.fairness = if (finish before after).masterStands then after.dp.fairness else 0

/-! ## The management link -/

/-- A fall of CS begins a frame with the buffer as it stands, and SDO shifts out its code, length and data, then 00H
(R175, R177). A frame with no complete byte changes nothing else; one whose bytes spell no command leaves FRAME (R176).
CS low with no frame, as after a reset in mid-frame, has SDO driven with bytes no rule gives (log 31), and its rise
ends nothing (R175); while CS is high SDO is undriven. That a command comes with the rise of CS, and one offered while
CS is high changes nothing, is the model's reading (log 19). -/
def Obligations.FramesOnTheLink : Prop :=
  ∀ s : State,
    (s.running → s.link.csLow = false →
      exec .frameBegin s = .next { s with link := { s.link with csLow := true, frame := some s.link.result } })
    ∧ (s.link.csLow = true → exec .frameBegin s = .next s)
    ∧ (∀ buffer, s.link.frame = some buffer →
        s.sdo 0 = some buffer.code.code ∧ s.sdo 1 = some (BitVec.ofNat 8 buffer.data.length)
        ∧ ∀ i, s.sdo (i + 2) = some (buffer.data.getD i 0))
    ∧ (s.link.frame = none → (s.link.csLow = true → ∀ i, s.sdo i = some (Config.unframedByte s.link.unframed i))
        ∧ (s.link.csLow = false → ∀ i, s.sdo i = none))
    ∧ (s.linked → exec (.frameError []) s = .next { s with link := { s.link with frame := none, csLow := false } })
    ∧ (∀ bytes, s.linked → decodeFrame bytes = .bad →
        exec (.frameError bytes) s = .next { s with link := s.link.showing .frame [] })
    ∧ ∀ c, encodeFrame c ≠ none ∨ (∃ bytes, c = .frameError bytes) → s.link.frame = none →
        exec c s = .next { s with
          link := if s.link.csLow then { s.link with csLow := false, unframed := s.link.unframed + 1 } else s.link }

/-- NOP gives OK with no data and changes no state (R179). STATUS gives OK with the 32 bytes of the status block of
this moment, and clears the lost-event count, no more (R181). EVENT removes the oldest record and gives its 12 bytes,
or EMPTY (R185). LEVEL gives the level block of level `k`, or ARG where there is no such level, and changes no state
(R182). Codes are those of R181 and 12.3. -/
def Obligations.LinkQueriesAnswered : Prop :=
  ([Mode.offline, .attaching, .suspect, .recovering, .online, .fenced].map Mode.code = [0, 1, 2, 3, 4, 5]
    ∧ [OpState.idle, .opening, .committing, .rotating, .rolling, .halted, .detaching].map OpState.code
        = [0, 1, 2, 3, 4, 5, 6]
    ∧ [FenceReason.none, .frozen, .brokenFault, .logDead].map FenceReason.code = [0, 1, 2, 3]
    ∧ [Stage.idle, .settling, .scanning, .replaying, .anchoring, .halted].map Stage.code = [0, 1, 2, 3, 4, 5]
    ∧ [WriteMode.strict, .posted].map WriteMode.code = [0, 1]
    ∧ [EventKind.attached, .attachFailed, .recovered, .recoveryHalted, .opened, .openFailed, .committed, .rotated,
        .rolledBack, .rollbackHalted, .epochBroken, .logFull, .logHigh, .writeLost, .faultTaken, .faultDropped, .fenced, .discarded,
        .detached, .captureFailed].map EventKind.code =
        [0x01, 0x02, 0x03, 0x04, 0x05, 0x06, 0x07, 0x08, 0x09, 0x0A,
         0x0B, 0x0C, 0x0D, 0x0E, 0x0F, 0x10, 0x11, 0x12, 0x13, 0x14]
    ∧ [Condition.none, .memBusy, .memError, .badSignature, .badCheck, .badSession, .badSequence, .badSerial, .badAddress,
        .aborted, .noSpace, .noAnchor, .logDead].map Condition.code =
        [0x00, 0x01, 0x02, 0x03, 0x04, 0x05, 0x06, 0x07, 0x08, 0x09, 0x0A, 0x0B, 0x0C]
    ∧ [ResultCode.ok, .accepted, .busy, .state, .arg, .depth, .space, .broken, .empty, .frame].map ResultCode.code =
        [0x00, 0x01, 0x02, 0x03, 0x04, 0x05, 0x06, 0x07, 0x08, 0x09])
  ∧ ∀ s : State, s.linked →
    (exec .nop s = .next { s with link := s.link.showing .ok [] }
    ∧ exec .status s = .next { s with eq := { s.eq with lost := 0 }, link := s.link.showing .ok s.statusBlock }
    ∧ s.statusBlock.length = 32
    ∧ s.statusBlock.take 12 =
        [s.oc.mode.code, s.oc.op.code, BitVec.ofNat 8 s.oc.stack.length, s.oc.fence.code, s.re.stage.code,
         BitVec.ofNat 8 (s.ce.contexts.countP Option.isSome), BitVec.ofNat 8 s.hq.entries.length, BitVec.ofNat 8 s.eq.lost,
         BitVec.ofNat 8 s.eq.records.length, if s.oc.latch then 1 else 0, if s.oc.rotationPending then 1 else 0,
         s.opts.writeMode.code]
    ∧ s.statusBlock.drop 12 =
        bigEndianNat s.lc.tail ++ bigEndianNat s.lc.head ++ bigEndianNat ((s.lc.tail + s.lc.durable) % s.log.slots)
          ++ bigEndianNat s.lc.live ++ bigEndianNat s.re.cursor)
    ∧ (s.eq.records = [] → exec .event s = .next { s with link := s.link.showing .empty [] })
    ∧ (∀ e rest, s.eq.records = e :: rest →
        exec .event s = .next { s with
          eq := { s.eq with records := rest }
          link := s.link.showing .ok ([e.kind.code, e.level, e.condition.code, 0]
            ++ bigEndian e.serial ++ bigEndian e.argument) })
    ∧ (∀ k : Byte, k = 0 ∨ s.oc.stack.length < k.toNat →
        exec (.level k) s = .next { s with link := s.link.showing .arg [] })
    ∧ (∀ (k : Byte) (l : Level), k ≠ 0 → s.oc.stack[k.toNat - 1]? = some l →
        exec (.level k) s = .next { s with
          link := s.link.showing .ok (bigEndian l.serial ++ (l.start.elim (bigEndian 0xFFFFFFFF#32) bigEndianNat)
            ++ bigEndian l.captures ++ [(if l.durable then 1 else 0) ||| (if l.broken then 2 else 0)]) })

/-- A record that arrives is appended while fewer than 16 are queued, else dropped and counted up to 255 (R183). ATTN is
active while records are queued, and inactive while RESETn is low (R186). -/
def Obligations.AttnFollowsEventQueue : Prop :=
  ∀ (s : State) (e : EventRecord),
    (s.eq.records.length < 16 → s.eq.push e = { s.eq with records := s.eq.records ++ [e] })
    ∧ (16 ≤ s.eq.records.length → s.eq.push e = { s.eq with lost := if s.eq.lost < 255 then s.eq.lost + 1 else 255 })
    ∧ (s.attn = true ↔ s.resetLow = false ∧ s.eq.records ≠ [])
    ∧ (s.running → ({ s with eq := s.eq.push e } : State).attn = true)
    ∧ (∀ n, ({ s with eq := { s.eq with lost := n } } : State).attn = s.attn)
    ∧ (s.linked → s.eq.records = [e] → ∃ t, exec .event s = .next t ∧ t.attn = false)
    ∧ ∃ t, exec .pinReset s = .next t ∧ t.attn = false

/-! ## Configuration -/

/-- SETWIN outside OFFLINE gives STATE; in OFFLINE, where its arguments fit the table of R7 the window is replaced and
the result is OK, else it gives ARG and changes the result alone. CLRWIN gives STATE, ARG or OK with the window at its
reset values (R7, R8). -/
def Obligations.WindowCommandsChecked : Prop :=
  ∀ (s : State) (i : Byte) (base limit : Word32) (m : Byte), s.linked →
    let fits := i.toNat < 8 ∧ (m = 0x00 ∨ m = 0x01) ∧ base.toNat % 0x1000 = 0 ∧ limit.toNat % 0x1000 = 0
      ∧ base.toNat < limitOf limit
      ∧ (∀ j w, s.windows[j]? = some w → w.valid = true → j ≠ i.toNat →
          limitOf limit ≤ w.base.toNat ∨ w.limit.toNat ≤ base.toNat)
      ∧ (s.log.slots = 0 ∨ limitOf limit ≤ s.log.base.toNat ∨ s.log.areaEnd ≤ base.toNat)
    (s.oc.mode ≠ .offline →
      exec (.setwin i base limit m) s = .next { s with link := s.link.showing .state [] }
      ∧ exec (.clrwin i) s = .next { s with link := s.link.showing .state [] })
    ∧ (s.oc.mode = .offline → ¬fits → exec (.setwin i base limit m) s = .next { s with link := s.link.showing .arg [] })
    ∧ (s.oc.mode = .offline → fits →
        exec (.setwin i base limit m) s = .next { s with
          windows := s.windows.set i.toNat
            { valid := true, base := base, limit := BitVec.ofNat 33 (if limit = 0 then 0x100000000 else limit.toNat),
              mode := if m = 0x01 then .track else .pass }
          link := s.link.showing .ok [] })
    ∧ (s.oc.mode = .offline → 8 ≤ i.toNat → exec (.clrwin i) s = .next { s with link := s.link.showing .arg [] })
    ∧ (s.oc.mode = .offline → i.toNat < 8 →
        exec (.clrwin i) s = .next { s with
          windows := s.windows.set i.toNat { valid := false, base := 0, limit := 0, mode := .pass }
          link := s.link.showing .ok [] })

/-- SETLOG outside OFFLINE gives STATE; in OFFLINE, where its arguments fit the table of R19 the configuration is
replaced, the ring state returns to its reset values and the result is OK, else it gives ARG and changes the result
alone (R19, R26). -/
def Obligations.SetlogChecked : Prop :=
  ∀ (s : State) (base slots : Word32), s.linked →
    let areaEnd := base.toNat + 0x80 + slots.toNat * 0x80
    let fits := base.toNat % 0x1000 = 0 ∧ 64 ≤ slots.toNat ∧ slots.toNat ≤ 1048576 ∧ areaEnd ≤ 0x100000000
      ∧ (∀ w ∈ s.windows, w.valid = true → areaEnd ≤ w.base.toNat ∨ w.limit.toNat ≤ base.toNat)
      ∧ (s.opts.highWater = 0 ∨ s.opts.highWater ≤ slots.toNat)
    (s.oc.mode ≠ .offline → exec (.setlog base slots) s = .next { s with link := s.link.showing .state [] })
    ∧ (s.oc.mode = .offline → ¬fits → exec (.setlog base slots) s = .next { s with link := s.link.showing .arg [] })
    ∧ (s.oc.mode = .offline → fits →
        exec (.setlog base slots) s = .next { s with
          log := { base := base, slots := slots.toNat }, lc := State.reset.lc, link := s.link.showing .ok [] })

/-- SETOPT outside OFFLINE and ONLINE gives STATE, in ONLINE while an operation runs BUSY, at a depth DEPTH; then ARG
for a value or an option id outside its range (BUSY for STRICT with more than one entry held), else the option is set
and the result is OK (R38, R58, R93, R98, R157, R165, R180). -/
def Obligations.SetoptChecked : Prop :=
  ∀ (s : State) (v : Word32) (id : Byte) (c : Instr), s.linked →
    c ∈ [.setoptWriteMode v, .setoptRetryLimit v, .setoptLogFullPolicy v, .setoptHighWaterMark v, .setoptFaultPolicy v,
         .setoptRotationPeriod v, .setoptUnknownOption id v] →
    (s.oc.mode ≠ .offline → s.oc.mode ≠ .online → exec c s = .next { s with link := s.link.showing .state [] })
    ∧ (s.oc.mode = .online → s.oc.op ≠ .idle → exec c s = .next { s with link := s.link.showing .busy [] })
    ∧ (s.oc.mode = .online → s.oc.op = .idle → s.oc.stack ≠ [] →
        exec c s = .next { s with link := s.link.showing .depth [] })
    ∧ (s.oc.mode = .offline ∨ (s.oc.mode = .online ∧ s.oc.op = .idle ∧ s.oc.stack = []) →
        exec (.setoptUnknownOption id v) s = .next { s with link := s.link.showing .arg [] }
        ∧ exec (.setoptWriteMode v) s =
          (if v = 0 then
            if 1 < s.hq.entries.length then .next { s with link := s.link.showing .busy [] }
            else .next { s with opts := { s.opts with writeMode := .strict }, link := s.link.showing .ok [] }
          else if v = 1 then .next { s with opts := { s.opts with writeMode := .posted }, link := s.link.showing .ok [] }
          else .next { s with link := s.link.showing .arg [] })
        ∧ exec (.setoptRetryLimit v) s =
          (if 1 ≤ v.toNat ∧ v.toNat ≤ 15 then
            .next { s with opts := { s.opts with retryLimit := v.toNat }, link := s.link.showing .ok [] }
          else .next { s with link := s.link.showing .arg [] })
        ∧ exec (.setoptLogFullPolicy v) s =
          (if v = 0 then .next { s with opts := { s.opts with logFull := .stall }, link := s.link.showing .ok [] }
          else if v = 1 then .next { s with opts := { s.opts with logFull := .break_ }, link := s.link.showing .ok [] }
          else .next { s with link := s.link.showing .arg [] })
        ∧ exec (.setoptHighWaterMark v) s =
          (if v.toNat ≤ s.log.slots then
            .next { s with
              opts := { s.opts with highWater := v.toNat }, lc := { s.lc with armed := true }, link := s.link.showing .ok [] }
          else .next { s with link := s.link.showing .arg [] })
        ∧ exec (.setoptFaultPolicy v) s =
          (if v = 0 then .next { s with opts := { s.opts with faultPolicy := .ignore }, link := s.link.showing .ok [] }
          else if v = 1 then .next { s with opts := { s.opts with faultPolicy := .freeze }, link := s.link.showing .ok [] }
          else if v = 2 then .next { s with opts := { s.opts with faultPolicy := .inner }, link := s.link.showing .ok [] }
          else if v = 3 then .next { s with opts := { s.opts with faultPolicy := .all }, link := s.link.showing .ok [] }
          else .next { s with link := s.link.showing .arg [] })
        ∧ exec (.setoptRotationPeriod v) s =
          (if v.toNat ≤ 60000 then
            .next { s with opts := { s.opts with rotationPeriod := v.toNat }, link := s.link.showing .ok [] }
          else .next { s with link := s.link.showing .arg [] }))

/-- Frames written out byte by byte from 12.3 decode to their commands, and every well-formed link command's frame
decodes to it, with every argument, whatever bytes follow it (R175, R176). -/
def Obligations.FramesDecodeToCommands : Prop :=
  (decodeFrame [] = .discarded
    ∧ decodeFrame [0x7F] = .bad
    ∧ decodeFrame [0x03] = .bad
    ∧ decodeFrame [0x00, 0xAA, 0xBB] = .taken .nop
    ∧ decodeFrame [0x10, 0x00, 0x00, 0x10, 0x00, 0x00, 0x00, 0x18, 0x00, 0x00, 0x01] =
        .taken (.setwin 0 0x00100000#32 0x00180000#32 0x01)
    ∧ decodeFrame [0x12, 0x00, 0x20, 0x00, 0x00, 0x00, 0x00, 0x10, 0x00] = .taken (.setlog 0x00200000#32 4096#32)
    ∧ decodeFrame [0x13, 0x04, 0x00, 0x00, 0x0B, 0xB8] = .taken (.setoptHighWaterMark 3000#32)
    ∧ decodeFrame [0x13, 0x07, 0x00, 0x00, 0x00, 0x00] = .taken (.setoptUnknownOption 7 0)
    ∧ decodeFrame [0x20, 0x01] = .taken .attachFormat
    ∧ decodeFrame [0x33, 0x02] = .taken (.rollback 2))
  ∧ ∀ (i : Instr) (bytes extra : List Byte), WellFormed i = true → encodeFrame i = some bytes →
    decodeFrame (bytes ++ extra) = .taken i

/-! ## The memory path -/

/-- The class of a request (R1, R4, R6) and the treatment table of R12, with R5 for BAD. -/
def Obligations.RequestClassAndTreatment : Prop :=
  (∀ (s : State) (r : MemRequest),
    let bad := (if r.isBlock = true then r.addr.toNat % 64 ≠ 0 else r.addr.toNat % 8 ≠ 0) ∨ ∃ a d, r = .writeWord a 0 d
    let block := r.addr.toNat / 64 * 64
    let inLog := s.log.slots ≠ 0 ∧ s.log.base.toNat ≤ block ∧ block < s.log.base.toNat + 0x80 + s.log.slots * 0x80
    let inTrack := ∃ w ∈ s.windows, w.valid = true ∧ w.mode = .track ∧ w.base.toNat ≤ block ∧ block < w.limit.toNat
    (bad → s.classify r = .bad)
    ∧ (¬bad → inLog → s.classify r = .log)
    ∧ (¬bad → ¬inLog → inTrack → s.classify r = .track)
    ∧ (¬bad → ¬inLog → ¬inTrack → s.classify r = .pass))
  ∧ ∀ (mode : Mode) (op : OpState) (isWrite : Bool),
    treatment mode op .bad isWrite = .refuse
    ∧ treatment mode op .pass isWrite = .take
    ∧ treatment mode op .log isWrite = (if isWrite = true ∧ mode ≠ .offline then .refuse else .take)
    ∧ treatment mode op .track isWrite =
        if mode = .offline then .take
        else if mode = .attaching then .stall
        else if mode = .online then (if op = .rolling then .stall else if op = .halted then .refuse else .take)
        else .refuse

/-- A BAD request is answered ERROR at once in every situation, and reaches neither the hold queue nor the downstream
port (R5). -/
def Obligations.BadRequestRefused : Prop :=
  (∀ (s : State) (r : MemRequest), s.running → s.up.state = .idle → requestBad r = true →
    ∃ t data, exec (.upstreamRequest r) s = .next t
      ∧ t.up =
          { state := .idle, received := s.up.received + 1
            answers := s.up.answers ++ [{ okay := false, data := data }] }
      ∧ OnlyChanges [.up, .ce, .fairness, .calm] s t)
  ∧ (∀ a, requestBad (.readWord a) = true ↔ a.toNat % 8 ≠ 0)
  ∧ ∀ a d, requestBad (.writeWord a 0xFF#8 d) = true ↔ a.toNat % 8 ≠ 0

/-- What the situation does with a request presented at an IDLE port: refused, stalled, taken as a read, or held with
the stamp in force, answered at once when POSTED, waiting when STRICT, stalled where no entry may be used (R2, R3, R12,
R13, R15, R95, R96, R97, R102). That a refusal carries no data is the model's choice (log 5). -/
def Obligations.RequestDecidedBySituation : Prop :=
  ∀ (s : State) (r : MemRequest), s.running → s.up.state = .idle →
    let cls := s.classify r
    let treated := treatment s.oc.mode s.oc.op cls r.isWrite
    let up := { s.up with received := s.up.received + 1 }
    let stamp : Word32 := if cls = .track ∧ s.oc.mode = .online then s.oc.stamp else 0
    let entry (acknowledged : Bool) : HoldEntry :=
      { order := s.hq.nextOrder, addr := r.addr, body := writeBody r, block := blockOf r.addr, cls := cls, stamp := stamp,
        capture := if stamp = 0 then .free else .notConsidered, acknowledged := acknowledged, issued := false }
    (treated = .refuse → exec (.upstreamRequest r) s = .next (finish s { s with up := up.answered false none }))
    ∧ (treated = .stall →
        exec (.upstreamRequest r) s = .next (finish s { s with up := { up with state := .stalled .situation r } }))
    ∧ (treated = .take → r.isWrite = false →
        exec (.upstreamRequest r) s = .next (finish s { s with
          up := { up with state := .readPending }
          hq := { s.hq with read := some { addr := r.addr, isBlock := r.isBlock, cls := cls } } }))
    ∧ (treated = .take → r.isWrite = true → s.opts.writeMode = .posted → s.hq.entries.length < 8 →
        exec (.upstreamRequest r) s = .next (finish s { s with
          up := up.answered true none
          hq := { s.hq with entries := s.hq.entries ++ [entry true], nextOrder := s.hq.nextOrder + 1 } }))
    ∧ (treated = .take → r.isWrite = true → s.opts.writeMode = .strict → s.hq.entries = [] →
        exec (.upstreamRequest r) s = .next (finish s { s with
          up := { up with state := .writePending }
          hq := { s.hq with entries := [entry false], nextOrder := s.hq.nextOrder + 1 } }))
    ∧ (treated = .take → r.isWrite = true →
        (s.opts.writeMode = .posted ∧ 8 ≤ s.hq.entries.length ∨ s.opts.writeMode = .strict ∧ s.hq.entries ≠ []) →
        exec (.upstreamRequest r) s = .next (finish s { s with up := { up with state := .stalled .queue r } }))

/-- The master path's read ends and is answered: OKAY with the 8 or 64 bytes read, or ERROR with zero data lines (R3,
R16). An issued write ends and leaves the hold queue: a STRICT one answers the master, an acknowledged one leaves
silently or, having failed, with WRITE_LOST (R3, R104, R105). -/
def Obligations.MasterTransfersEnd : Prop :=
  (∀ (s : State) (p : PendingRead), s.running → s.hq.read = some p → s.up.state = .readPending →
      (∀ d, s.endsWith .masterRead (.okay d) →
        exec (.masterReadComplete (.okay d)) s = .next (finish s { s with
          up := s.up.answered true (some (if p.isBlock then .block d else .word (d.extractLsb' 0 64)))
          hq := { s.hq with read := none }
          dp := s.dp.freed }))
      ∧ ∀ f, s.endsWith .masterRead (.failed f) →
        exec (.masterReadComplete (.failed f)) s = .next (finish s { s with
          up := s.up.answered false (some (if p.isBlock then .block 0 else .word 0))
          hq := { s.hq with read := none }
          dp := s.dp.freed }))
  ∧ ∀ (s : State) (n : Nat) (e : HoldEntry), s.running → s.hq.entry n = some e →
    let hq := { s.hq with entries := s.hq.entries.filter fun x => decide (x.order ≠ n) }
    (s.endsWith (.masterWrite n) (.okay 0) → e.acknowledged = true →
      exec .masterWriteComplete s = .next (finish s { s with hq := hq, dp := s.dp.freed }))
    ∧ (s.endsWith (.masterWrite n) (.okay 0) → e.acknowledged = false → s.up.state = .writePending →
      exec .masterWriteComplete s = .next (finish s { s with hq := hq, dp := s.dp.freed, up := s.up.answered true none }))
    ∧ ∀ f, s.endsWith (.masterWrite n) (.failed f) →
      (e.acknowledged = true →
        exec (.masterWriteFailed f) s = .next (finish s { s with
          hq := hq
          dp := s.dp.freed
          eq := s.eq.push
            { kind := .writeLost, level := BitVec.ofNat 8 ((s.oc.levelOf e.stamp).getD 0),
              condition := if f = .busy then .memBusy else .memError, serial := e.stamp, argument := e.addr } }))
      ∧ (e.acknowledged = false → s.up.state = .writePending →
        exec (.masterWriteFailed f) s = .next (finish s { s with
          hq := hq, dp := s.dp.freed, up := s.up.answered false none }))

/-- A discard drops HELD entries alone, answering ERROR for a STRICT one (R107); a restamp changes the entries of one
stamp (R99). -/
def Obligations.DiscardAndRestamp : Prop :=
  (∀ (s : State) (p : HoldEntry → Bool),
    (s.discardHeld p).hq = { s.hq with entries := s.hq.entries.filter fun e => e.issued || !p e }
    ∧ ((∃ e ∈ s.hq.entries, e.issued = false ∧ p e = true ∧ e.acknowledged = false) → s.up.state ≠ .idle →
        (s.discardHeld p).up = s.up.answered false none)
    ∧ ((∀ e ∈ s.hq.entries, e.issued = false → p e = true → e.acknowledged = true) → (s.discardHeld p).up = s.up)
    ∧ OnlyChanges [.up, .hq] s (s.discardHeld p)
    ∧ s.discardCount p = s.hq.entries.countP fun e => !e.issued && p e && e.acknowledged)
  ∧ ∀ (s : State) (old new : Word32),
    s.restamp old new = { s with
      hq := { s.hq with
        entries := s.hq.entries.map fun e =>
          if e.stamp = old then
            { e with
              stamp := new
              capture := if new = 0 ∧ (e.capture = .notConsidered ∨ e.capture = .waiting) then .free else e.capture }
          else e } }

/-! ## Faults -/

/-- An assertion is taken at a change of the line alone, and decided by policy and situation in order; a deassertion is
recorded and no more (R164, R165, R166). -/
def Obligations.FaultAssertionDecided : Prop :=
  ∀ s : State, s.running →
    let seen := { s.oc with faultLine := true }
    let dropped (reason : Word32) : State := { s with
      oc := seen
      eq := s.eq.push { kind := .faultDropped, level := BitVec.ofNat 8 s.oc.stack.length, condition := .none,
                        serial := s.oc.innermost, argument := reason } }
    (s.oc.faultLine = true →
      exec .faultDeassertion s = .next (finish s { s with oc := { s.oc with faultLine := false } })
      ∧ exec .faultAssertion s = .next s)
    ∧ (s.oc.faultLine = false → exec .faultDeassertion s = .next s)
    ∧ (s.oc.faultLine = false → s.opts.faultPolicy = .ignore →
        exec .faultAssertion s = .next (finish s { s with oc := seen }))
    ∧ (s.oc.faultLine = false → s.opts.faultPolicy ≠ .ignore →
        ((s.oc.op = .rolling ∨ s.oc.op = .halted) → exec .faultAssertion s = .next (finish s (dropped 2)))
        ∧ (s.oc.op ≠ .rolling → s.oc.op ≠ .halted → s.oc.mode ≠ .online →
            exec .faultAssertion s = .next (finish s (dropped 1)))
        ∧ (s.oc.mode = .online → s.oc.op ≠ .rolling → s.oc.op ≠ .halted → s.oc.op ≠ .idle →
            (s.oc.latch = false →
              exec .faultAssertion s = .next (finish s { s with oc := { seen with latch := true } }))
            ∧ (s.oc.latch = true → exec .faultAssertion s = .next (finish s (dropped 3)))))

/-- An assertion acted on in ONLINE at IDLE: a freeze, a drop at depth 0, a fence over a broken range, or a rollback
with origin FAULT whose acceptance discards the range's held writes (R108, R109, R117, R167, R169). That the cursor
keeps its value from that acceptance until SETTLING ends is the model's reading (log 22). -/
def Obligations.FaultActedOnAtIdle : Prop :=
  ∀ s : State, s.running → s.oc.faultLine = false → s.oc.mode = .online → s.oc.op = .idle →
    let seen := { s.oc with faultLine := true }
    let taken (j : Nat) (dropped : Nat) : EventRecord :=
      { kind := .faultTaken, level := BitVec.ofNat 8 j, condition := .none, serial := s.oc.serialAt j,
        argument := BitVec.ofNat 32 dropped }
    let fenced (reason : Word32) : EventRecord :=
      { kind := .fenced, level := BitVec.ofNat 8 s.oc.stack.length, condition := .none, serial := s.oc.innermost,
        argument := reason }
    (s.opts.faultPolicy = .freeze →
      exec .faultAssertion s = .next (finish s { s with
        oc := { seen with mode := .fenced, fence := .frozen, timer := none, rotationPending := false }
        eq := (s.eq.push (taken s.oc.stack.length 0)).push (fenced 1) }))
    ∧ (s.opts.faultPolicy = .inner ∨ s.opts.faultPolicy = .all → s.oc.stack = [] →
        exec .faultAssertion s = .next (finish s { s with
          oc := seen
          eq := s.eq.push { kind := .faultDropped, level := 0, condition := .none, serial := 0, argument := 4 } }))
    ∧ ∀ j : Nat, (s.opts.faultPolicy = .inner ∧ j = s.oc.stack.length ∨ s.opts.faultPolicy = .all ∧ j = 1) →
        s.oc.stack ≠ [] →
        ((s.oc.stack.drop (j - 1)).any (·.broken) = true →
          exec .faultAssertion s = .next (finish s { s.discardHeld (fun e => decide (e.cls = .track)) with
            oc := { seen with mode := .fenced, fence := .brokenFault, timer := none, rotationPending := false }
            eq := (s.eq.push (taken j 0)).push (fenced 2) }))
        ∧ ((s.oc.stack.drop (j - 1)).any (·.broken) = false →
          let inRange (e : HoldEntry) : Bool := (s.oc.stack.drop (j - 1)).any fun l => decide (l.serial = e.stamp)
          exec .faultAssertion s = .next (finish s { s.discardHeld inRange with
            oc := { seen with op := .rolling }
            re := { s.re with
              stage := .settling, purpose := .rollback, origin := .fault, target := j, targetSerial := s.oc.serialAt j
              fromFreeze := false, restored := 0, abortRequested := false, haltCondition := .none, rangeBreak := .none
              handling := .header }
            eq := s.eq.push (taken j (s.discardCount inRange)) }))

/-- The latch is taken at IDLE: in ONLINE the assertion is acted on as one taken then, elsewhere it is dropped with
reason 1; while an operation runs it stays (R168). THAW gives STATE unless the part is FENCED for FROZEN, BUSY while an
operation runs, else OK: the mode is ONLINE, the fence reason NONE, and at a depth the timer starts (R58, R172). -/
def Obligations.LatchTakenFreezeThawed : Prop :=
  (∀ s : State, s.running →
      (s.oc.latch = false ∨ s.oc.op ≠ .idle → exec .faultLatchTaken s = .next s)
      ∧ (s.oc.latch = true → s.oc.op = .idle → s.oc.mode ≠ .online →
          exec .faultLatchTaken s = .next (finish s { s with
            oc := { s.oc with latch := false }
            eq := s.eq.push { kind := .faultDropped, level := BitVec.ofNat 8 s.oc.stack.length, condition := .none,
                              serial := s.oc.innermost, argument := 1 } }))
      ∧ (s.oc.latch = true → s.oc.op = .idle → s.oc.mode = .online →
          ∃ u, exec .faultLatchTaken s = .next (finish s u)
            ∧ exec .faultAssertion { s with oc := { s.oc with latch := false, faultLine := false } } =
                .next (finish s { u with oc := { u.oc with faultLine := true } })))
  ∧ ∀ s : State, s.linked →
    (¬(s.oc.mode = .fenced ∧ s.oc.fence = .frozen) → exec .thaw s = .next { s with link := s.link.showing .state [] })
    ∧ (s.oc.mode = .fenced → s.oc.fence = .frozen → s.oc.op ≠ .idle →
        exec .thaw s = .next { s with link := s.link.showing .busy [] })
    ∧ (s.oc.mode = .fenced → s.oc.fence = .frozen → s.oc.op = .idle →
        exec .thaw s = .next { finish s { s with
          oc := { s.oc with
            mode := .online, fence := .none
            timer := if s.oc.stack = [] then s.oc.timer else s.opts.fullPeriod } } with link := s.link.showing .ok [] })

/-! ## Epochs -/

/-- An inner COMMIT merges the innermost level into the one below at once: counts added, filter, contexts, reservations
and held writes carried over to the level below, COMMITTED raised (R52, R68, R87, R99). -/
def Obligations.InnerCommitMergesLevel : Prop :=
  ∀ (s : State) (base : List Level) (below top : Level), s.linked → s.oc.mode = .online → s.oc.op = .idle →
    s.oc.stack = base ++ [below, top] →
    let k := base.length + 2
    exec .commit s = .next { finish s { s with
      oc := { s.oc with
        stack := base ++ [{ below with captures := addCaptures below.captures top.captures }], stamp := below.serial }
      cf := s.cf.map fun e => if e.level = k then { e with level := k - 1 } else e
      ce := { s.ce with
        contexts := s.ce.contexts.map (Option.map fun c =>
          if c.level = k then { c with level := k - 1, serial := below.serial } else c) }
      lc := { s.lc with
        reservations := s.lc.reservations.map fun e =>
          if e.purpose = .capture ∧ e.level = k then { e with level := k - 1, serial := below.serial } else e }
      hq := { s.hq with entries := s.hq.entries.map fun e => e.restamp top.serial below.serial }
      eq := s.eq.push { kind := .committed, level := BitVec.ofNat 8 k, condition := .none, serial := top.serial,
                        argument := top.captures } }
      with link := s.link.showing .ok [] }

/-- OPEN, COMMIT and ROTATE are refused BUSY over a rollback that is ROLLING or HALTED, from a freeze too, else in the
order of R47's table, and change no state but the result (R47, R118, R129); that R118 goes before R47's mode check over
a rollback from a freeze is the model's choice (log 33). An accepted OPEN takes the next serial, pushes a level of it
with no marker, and stamps with it (R25, R43, R47, R48). A COMMIT at depth 1 starts the commit wait with stamp 0; a
ROTATE takes the successor serial and stamps with it (R43, R47, R53, R55). -/
def Obligations.EpochCommandsChecked : Prop :=
  (∀ s : State, s.linked →
      let refused (c : Instr) (code : ResultCode) : Prop := exec c s = .next { s with link := s.link.showing code [] }
      (∀ c, c ∈ [.openEpoch, .commit, .rotate] →
        (s.oc.op = .rolling ∨ s.oc.op = .halted → refused c .busy)
        ∧ (s.oc.op ≠ .rolling → s.oc.op ≠ .halted → s.oc.mode ≠ .online → refused c .state)
        ∧ (s.oc.mode = .online → s.oc.op ≠ .idle → refused c .busy))
      ∧ (s.oc.mode = .online → s.oc.op = .idle →
          (6 ≤ s.oc.stack.length → refused .openEpoch .depth)
          ∧ (s.oc.stack.length < 6 → s.log.slots ≤ s.lc.live ∨ s.lc.nextSerial = 0 → refused .openEpoch .space)
          ∧ (s.oc.stack = [] → refused .commit .depth)
          ∧ (s.oc.stack.length ≠ 1 → refused .rotate .depth)
          ∧ (s.oc.stack.length = 1 → s.lc.nextSerial = 0 → refused .rotate .space)))
  ∧ (∀ s : State, s.linked → s.oc.mode = .online → s.oc.op = .idle → s.oc.stack.length < 6 → s.lc.live < s.log.slots →
      s.lc.nextSerial ≠ 0 →
      exec .openEpoch s = .next { finish s { s with
        lc := { s.lc with nextSerial := s.lc.nextSerial + 1 }
        oc := { s.oc with
          stack := s.oc.stack ++
            [{ serial := s.lc.nextSerial, start := none, durable := false, broken := false, captures := 0 }]
          stamp := s.lc.nextSerial, op := .opening, phase := .openWait } }
        with link := s.link.showing .accepted (bigEndian s.lc.nextSerial) })
  ∧ ∀ (s : State) (l : Level), s.linked → s.oc.mode = .online → s.oc.op = .idle → s.oc.stack = [l] →
    exec .commit s = .next { finish s { s with
      oc := { s.oc with stamp := 0, op := .committing, phase := .commitWait } } with link := s.link.showing .accepted [] }
    ∧ (s.lc.nextSerial ≠ 0 →
        exec .rotate s = .next { finish s { s with
          lc := { s.lc with nextSerial := s.lc.nextSerial + 1 }
          oc := { s.oc with
            successor := some { serial := s.lc.nextSerial, origin := .command, marker := none }
            stamp := s.lc.nextSerial, op := .rotating, phase := .rotateWait } }
          with link := s.link.showing .accepted (bigEndian s.lc.nextSerial) })

/-- The timer's expiry reloads it and starts a rotation, or sets one pending; a pending rotation is taken at IDLE and
depth 1. Without a serial the rotation is refused by OPEN_FAILED and the timer stops (R43, R55, R58, R59, R60). That
the expiry stands while the timer is at 0, that its taking is what reloads the timer, and that an expiry offered at
another timer value has no effect are the model's choices (log 1, 2). -/
def Obligations.TimerRotations : Prop :=
  ∀ s : State, s.running →
    let started (o : Controller) : State := { s with
      lc := { s.lc with nextSerial := s.lc.nextSerial + 1 }
      oc := { o with
        successor := some { serial := s.lc.nextSerial, origin := .timer, marker := none }
        stamp := s.lc.nextSerial, op := .rotating, phase := .rotateWait } }
    let unserved (o : Controller) : State := { s with
      oc := { o with timer := none }
      eq := s.eq.push { kind := .openFailed, level := 1, condition := .noSpace, serial := 0, argument := 2 } }
    let reloaded := { s.oc with timer := s.opts.fullPeriod }
    let may := s.oc.mode = .online ∧ s.oc.op = .idle ∧ s.oc.stack.length = 1
    (s.oc.timer = some 0 → s.oc.rotationPending = true →
      exec .rotationTimerExpiry s = .next (finish s { s with oc := reloaded }))
    ∧ (s.oc.timer = some 0 → s.oc.rotationPending = false → may →
        exec .rotationTimerExpiry s =
          .next (finish s (if s.lc.nextSerial = 0 then unserved reloaded else started reloaded)))
    ∧ (s.oc.timer = some 0 → s.oc.rotationPending = false → s.oc.mode = .online → ¬may →
        exec .rotationTimerExpiry s = .next (finish s { s with oc := { reloaded with rotationPending := true } }))
    ∧ (s.oc.timer ≠ some 0 → exec .rotationTimerExpiry s = .next s)
    ∧ (s.oc.rotationPending = true → may →
        let cleared := { s.oc with rotationPending := false }
        exec .pendingRotationTaken s =
          .next (finish s (if s.lc.nextSerial = 0 then unserved cleared else started cleared)))
    ∧ (s.oc.rotationPending = false ∨ ¬may → exec .pendingRotationTaken s = .next s)

/-- The ordering wait of an OPEN lasts until no older write waits to be considered or the consideration is paused for a
slot: ORDERING_WAIT_END does nothing before that, and nothing in another phase. Then it ends: the marker's slot is
reserved and its header queued, or, with no slot, the level is popped, its writes restamped and OPEN_FAILED raised
(R27, R38, R49, R50, R51). -/
def Obligations.OrderingWaitEnds : Prop :=
  ∀ s : State, s.running →
    let isOver :=
      s.hq.entries.all (fun e => e.issued || !e.toConsider || decide (s.oc.innermost.toNat ≤ e.stamp.toNat)) = true
      ∨ s.ce.episode = true ∧ s.opts.logFull = .stall
    (s.oc.phase ≠ .openWait ∨ ¬isOver → exec .orderingWaitEnd s = .next s)
    ∧ (s.oc.phase = .openWait → isOver → s.lc.dead = false → s.lc.live ≠ s.log.slots →
      let high := s.opts.highWater ≠ 0 ∧ s.lc.live + 1 = s.opts.highWater ∧ s.lc.armed = true
      exec .orderingWaitEnd s = .next (finish s { s with
        lc := { s.lc with
          head := (s.lc.head + 1) % s.log.slots, live := s.lc.live + 1, nextSequence := s.lc.nextSequence + 1
          reservations := s.lc.reservations ++
            [{ slot := s.lc.head, sequence := s.lc.nextSequence, purpose := .marker, level := s.oc.stack.length,
               serial := s.oc.innermost, state := .pending, failure := none }]
          writes := s.lc.writes ++ [.openHeader s.lc.head]
          armed := if high then false else s.lc.armed }
        oc := { s.oc with
          stack := s.oc.stack.modify (s.oc.stack.length - 1) fun l => { l with start := some s.lc.head }
          phase := .openMarker }
        eq := if high then
            s.eq.push { kind := .logHigh, level := 0, condition := .none, serial := 0,
                        argument := BitVec.ofNat 32 (s.lc.live + 1) }
          else s.eq }))
    ∧ (s.oc.phase = .openWait → isOver → s.lc.dead = false → s.lc.live = s.log.slots →
      ∀ (rest : List Level) (l : Level), s.oc.stack = rest ++ [l] →
      let below : Word32 := (rest.getLast?.map Level.serial).getD 0
      exec .orderingWaitEnd s = .next (finish s { s with
        oc := { s.oc with
          stack := rest, stamp := below, op := .idle, phase := .none
          timer := if rest = [] then none else s.oc.timer
          rotationPending := if rest = [] then false else s.oc.rotationPending }
        hq := { s.hq with entries := s.hq.entries.map fun e => e.restamp l.serial below }
        eq := s.eq.push { kind := .openFailed, level := BitVec.ofNat 8 (rest.length + 1), condition := .noSpace,
                          serial := l.serial, argument := 0 } }))

/-- The commit wait lasts until no write of level 1 waits to be considered, or the consideration is paused for a slot,
and every context is free: COMMIT_WAIT_END and ROTATE_WAIT_END do nothing before that, and nothing in another phase.
Then the wait ends: the capture bar is set on level 1's serial; a COMMIT asks for its anchor, a ROTATE for its marker's
slot, or with no free slot for an anchor first (R53 to R57, R77). -/
def Obligations.CommitAndRotateWaitsEnd : Prop :=
  ∀ s : State, s.running →
    let isOver :=
      (s.ce.episode = true ∧ s.opts.logFull = .stall
        ∨ ∀ e ∈ s.hq.entries, e.stamp = s.oc.serialAt 1 → e.capture ≠ .notConsidered ∧ e.capture ≠ .waiting)
      ∧ ∀ c ∈ s.ce.contexts, c = none
    let barred := { s.oc with bar := some (s.oc.serialAt 1) }
    (s.oc.phase ≠ .commitWait ∨ ¬isOver → exec .commitWaitEnd s = .next s)
    ∧ (s.oc.phase ≠ .rotateWait ∨ ¬isOver → exec .rotateWaitEnd s = .next s)
    ∧ (s.oc.phase = .commitWait → isOver →
      exec .commitWaitEnd s = .next (finish s { s with
        oc := { barred with phase := .commitAnchor }
        lc := { s.lc with writes := s.lc.writes ++ [.anchor .commit] } }))
    ∧ (∀ x, s.oc.phase = .rotateWait → isOver → s.oc.successor = some x → s.log.slots ≤ s.lc.live →
      exec .rotateWaitEnd s = .next (finish s { s with
        oc := { barred with phase := .rotateFirstAnchor }
        lc := { s.lc with writes := s.lc.writes ++ [.anchor .rotateFirst] } }))
    ∧ (∀ x, s.oc.phase = .rotateWait → isOver → s.oc.successor = some x → s.lc.live < s.log.slots →
      let high := s.opts.highWater ≠ 0 ∧ s.lc.live + 1 = s.opts.highWater ∧ s.lc.armed = true
      exec .rotateWaitEnd s = .next (finish s { s with
        oc := { barred with phase := .rotateMarker, successor := some { x with marker := some s.lc.head } }
        lc := { s.lc with
          head := (s.lc.head + 1) % s.log.slots, live := s.lc.live + 1, nextSequence := s.lc.nextSequence + 1
          reservations := s.lc.reservations ++
            [{ slot := s.lc.head, sequence := s.lc.nextSequence, purpose := .marker, level := 1, serial := x.serial,
               state := .pending, failure := none }]
          writes := s.lc.writes ++ [.openHeader s.lc.head]
          armed := if high then false else s.lc.armed }
        eq := if high then
            s.eq.push { kind := .logHigh, level := 0, condition := .none, serial := 0,
                        argument := BitVec.ofNat 32 (s.lc.live + 1) }
          else s.eq }))

/-! ## Captures -/

/-- Which write is considered, and when: the oldest TRACK write with a stamp that is NOT_CONSIDERED or WAITING, in
ONLINE and in the fences that hold TRACK writes, while the log lives (R76). It is not considered, and nothing changes,
while its level's marker is not durable, while it carries a successor serial, or while the capture bar is set on its
stamp (R45, R77). Its level is the one whose serial it carries, level 1 for the successor's (R45). Of the busy contexts
on its block at its level one that has not failed counts first (R78, R79). -/
def Obligations.ConsiderationPointAndBars : Prop :=
  ∀ s : State,
    (s.considers = true ↔ s.lc.dead = false
      ∧ (s.oc.mode = .online ∨ s.oc.mode = .fenced ∧ (s.oc.fence = .frozen ∨ s.oc.fence = .brokenFault)))
    ∧ (∀ e : HoldEntry, e.toConsider = true ↔
      e.cls = .track ∧ e.stamp ≠ 0 ∧ (e.capture = .notConsidered ∨ e.capture = .waiting))
    ∧ (∀ e, s.considerationPoint = some e ↔ ∃ older younger, s.hq.entries = older ++ e :: younger ∧ e.toConsider = true
      ∧ ∀ x ∈ older, x.toConsider = false)
    ∧ (∀ e, s.mayConsider e = true ↔
      (∃ l ∈ s.oc.stack, l.serial = e.stamp ∧ l.durable = true) ∧ s.oc.bar ≠ some e.stamp)
    ∧ (s.considers = false ∨ s.considerationPoint = none → exec .consideration s = .next s)
    ∧ (∀ e, s.considerationPoint = some e →
      (∀ l ∈ s.oc.stack, l.serial = e.stamp → l.durable = false) ∨ s.oc.bar = some e.stamp →
      exec .consideration s = .next s)
    ∧ (s.oc.levelOf 0 = none
      ∧ (∀ (i : Nat) (l : Level), l.serial ≠ 0 → s.oc.stack[i]? = some l →
          (∀ j < i, ∀ x, s.oc.stack[j]? = some x → x.serial ≠ l.serial) → s.oc.levelOf l.serial = some (i + 1))
      ∧ ∀ x, s.oc.successor = some x → x.serial ≠ 0 → (∀ l ∈ s.oc.stack, l.serial ≠ x.serial) →
          s.oc.levelOf x.serial = some 1)
    ∧ ∀ (block : Addr) (k : Nat),
      (s.ce.busyOn block k = none ↔ ∀ c, some c ∈ s.ce.contexts → ¬(c.block = block ∧ c.level = k))
      ∧ ∀ c, s.ce.busyOn block k = some c → some c ∈ s.ce.contexts ∧ c.block = block ∧ c.level = k
        ∧ (c.failure ≠ none → ∀ x, some x ∈ s.ce.contexts → x.block = block → x.level = k → x.failure ≠ none)

/-- A write at the consideration point is looked up at its level. A hit, or a busy context on its block at its level,
settles it: it depends on that context's slot, is free where the record is durable, and where that context failed under
STRICT it waits (R64, R76 to R79). -/
def Obligations.ConsiderationSettledByLookup : Prop :=
  ∀ (s : State) (e : HoldEntry) (k : Nat), s.running → s.considers = true → s.considerationPoint = some e →
    s.mayConsider e = true → s.oc.levelOf e.stamp = some k →
    let hit := ∃ x ∈ s.cf, x.block = e.block ∧ x.level = k
    let settled (c : CaptureState) (cf : List FilterEntry) : State := { s with
      cf := cf
      hq := { s.hq with entries := s.hq.entries.map fun x => if x.order = e.order then { x with capture := c } else x } }
    (∀ c, hit → s.ce.busyOn e.block k = some c →
      exec .consideration s = .next (finish s (settled (.depends c.slot) s.cf)))
    ∧ (hit → s.ce.busyOn e.block k = none → exec .consideration s = .next (finish s (settled .free s.cf)))
    ∧ (∀ c, ¬hit → s.ce.busyOn e.block k = some c → c.failure = none ∨ s.opts.writeMode = .posted →
      exec .consideration s = .next (finish s (settled (.depends c.slot) (filterInsert s.cf e.block k))))
    ∧ (∀ c, ¬hit → s.ce.busyOn e.block k = some c → c.failure ≠ none → s.opts.writeMode = .strict →
      exec .consideration s = .next (finish s (settled .waiting s.cf)))

/-- A first write to a block at its level starts a capture where a context and a slot are free: the slot at head is
reserved, the lowest-numbered free context takes it, the block enters the filter, and the write depends on the slot
(R27, R38, R65, R80, R81, R83). That the new context's kept bytes are 0 until its read is the model's choice (log 11).
-/
def Obligations.ConsiderationStartsCapture : Prop :=
  ∀ (s : State) (e : HoldEntry) (k i : Nat), s.running → s.considers = true → s.considerationPoint = some e →
    s.mayConsider e = true → s.oc.levelOf e.stamp = some k → (∀ x ∈ s.cf, ¬(x.block = e.block ∧ x.level = k)) →
    s.ce.busyOn e.block k = none → s.oc.detaching = false → s.ce.episode = false →
    s.ce.contexts[i]? = some none → (∀ j < i, ∃ c, s.ce.contexts[j]? = some (some c)) →
    s.lc.live ≠ s.log.slots →
    let high := s.opts.highWater ≠ 0 ∧ s.lc.live + 1 = s.opts.highWater ∧ s.lc.armed = true
    let waits := ∃ x ∈ s.hq.entries, x.issued = false ∧ x.block = e.block ∧ x.order < e.order
    ∃ t, exec .consideration s = .next (finish s t)
      ∧ t = { s with
        lc := { s.lc with
          head := (s.lc.head + 1) % s.log.slots, live := s.lc.live + 1, nextSequence := s.lc.nextSequence + 1
          reservations := s.lc.reservations ++
            [{ slot := s.lc.head, sequence := s.lc.nextSequence, purpose := .capture, level := k, serial := e.stamp,
               state := .pending, failure := none }]
          armed := if high then false else s.lc.armed }
        cf := filterInsert s.cf e.block k
        ce := t.ce
        hq := { s.hq with
          entries := s.hq.entries.map fun x => if x.order = e.order then { x with capture := .depends s.lc.head } else x }
        eq := if high then
            s.eq.push { kind := .logHigh, level := 0, condition := .none, serial := 0,
                        argument := BitVec.ofNat 32 (s.lc.live + 1) }
          else s.eq }
      ∧ t.ce.episode = false
      ∧ ∀ state, (waits → state = .orderWait) → (¬waits → state = .reading) →
          t.ce.contexts = s.ce.contexts.set i (some
            { block := e.block, slot := s.lc.head, level := k, serial := e.stamp, trigger := e.order, state := state,
              failure := none, bytes := 0 })

/-- A first write that finds no free context waits. One that finds no slot waits under STALL, and under BREAK goes free
with its block entered and every level broken; the episode it begins raises LOG_FULL once (R42, R80, R91, R92). That in
an episode the policy acts before a free context is looked for is the model's reading (log 16). After a DETACH is
accepted no slot is asked for (R94, R150): the waits for a context and what an episode gives stand as before, and a
write that a free context would take is left as it is, which is the model's reading (log 18). -/
def Obligations.ConsiderationWithoutSlot : Prop :=
  ∀ (s : State) (e : HoldEntry) (k : Nat), s.running → s.considers = true → s.considerationPoint = some e →
    s.mayConsider e = true → s.oc.levelOf e.stamp = some k → (∀ x ∈ s.cf, ¬(x.block = e.block ∧ x.level = k)) →
    s.ce.busyOn e.block k = none →
    let entries (c : CaptureState) := s.hq.entries.map fun x => if x.order = e.order then { x with capture := c } else x
    let full : EventRecord :=
      { kind := .logFull, level := BitVec.ofNat 8 k, condition := .noSpace, serial := e.stamp, argument := e.block }
    (s.ce.episode = false → (∀ c ∈ s.ce.contexts, c ≠ none) →
      exec .consideration s = .next (finish s { s with hq := { s.hq with entries := entries .waiting } }))
    ∧ (s.opts.logFull = .stall → s.ce.episode = false → s.oc.detaching = false → none ∈ s.ce.contexts →
      s.lc.live = s.log.slots →
      exec .consideration s = .next (finish s { s with
        hq := { s.hq with entries := entries .waiting }, ce := { s.ce with episode := true }, eq := s.eq.push full }))
    ∧ (s.opts.logFull = .stall → s.ce.episode = true →
      exec .consideration s = .next (finish s { s with hq := { s.hq with entries := entries .waiting } }))
    ∧ (s.ce.episode = false → s.oc.detaching = true → none ∈ s.ce.contexts → exec .consideration s = .next (finish s s))
    ∧ (s.opts.logFull = .break_ →
      s.ce.episode = true ∨ (s.oc.detaching = false ∧ none ∈ s.ce.contexts ∧ s.lc.live = s.log.slots) →
      let u := ({ s with cf := filterInsert s.cf e.block k } : State).breakAll .noSpace e.block
      exec .consideration s = .next (finish s { u with
        hq := { s.hq with entries := entries .free }
        ce := { s.ce with episode := true }
        eq := if s.ce.episode then u.eq else u.eq.push full }))

/-- An insertion overwrites the block's own entry in its way, else takes the lowest-numbered invalid way of its set,
else evicts of the set's entries the oldest among those of the lowest level and takes its way; no other entry changes,
and the new entry is the youngest (R62, R65, R66). That the entries stand in the order of their insertion is the
model's form of their ages (log 7). -/
def Obligations.FilterInsertionPlacesBlock : Prop :=
  ∀ (cf : List FilterEntry) (block : Addr) (k : Nat),
    let inSet (e : FilterEntry) : Prop := e.block.toNat / 64 % 256 = block.toNat / 64 % 256
    (∀ pre old post, cf = pre ++ old :: post → old.block = block → (∀ e ∈ pre ++ post, e.block ≠ block) →
      filterInsert cf block k = pre ++ post ++ [{ block := block, level := k, way := old.way }])
    ∧ (∀ w < 4, (∀ e ∈ cf, e.block ≠ block) → (∀ e ∈ cf, inSet e → e.way ≠ w) →
      (∀ v < w, ∃ e ∈ cf, inSet e ∧ e.way = v) →
      filterInsert cf block k = cf ++ [{ block := block, level := k, way := w }])
    ∧ ∀ pre victim post, cf = pre ++ victim :: post → (∀ e ∈ cf, e.block ≠ block) →
      (∀ w < 4, ∃ e ∈ cf, inSet e ∧ e.way = w) → inSet victim → (∀ e ∈ pre, inSet e → victim.level < e.level) →
      (∀ e ∈ post, inSet e → victim.level ≤ e.level) → (∀ e ∈ pre ++ post, e.block ≠ victim.block) →
      filterInsert cf block k = pre ++ post ++ [{ block := block, level := k, way := victim.way }]

/-- A capture's read keeps the block's bytes and goes on to the payload write, and that to the header write, which
makes the slot WRITTEN (R28, R84, R85). Where an older slot is not written the durable mark stays. Where the slot is
the next the mark passes it, and goes on over what stands written behind it: the level counts a capture, the context is
freed, and the writes that depended on it are free (R29, R42, R86, R96). -/
def Obligations.CaptureRequestsComplete : Prop :=
  ∀ (s : State) (i : Nat) (c : Context), s.running → s.ce.contexts[i]? = some (some c) →
    let moved (x : Context) : State := { s with
      ce := { s.ce with contexts := s.ce.contexts.set i (some x) }, dp := s.dp.freed }
    (∀ d, s.endsWith (.ce i .read) (.okay d) →
      exec (.captureReadComplete d) s = .next (finish s (moved { c with bytes := d, state := .writingPayload })))
    ∧ (s.endsWith (.ce i .payload) (.okay 0) →
      exec .capturePayloadWriteComplete s = .next (finish s (moved { c with state := .writingHeader })))
    ∧ ∀ (r : Reservation) (rest : List Reservation), s.endsWith (.ce i .header) (.okay 0) → s.lc.reservations = r :: rest →
      (r.slot ≠ c.slot → r.state ≠ .written →
        exec .captureHeaderWriteComplete s = .next (finish s { moved { c with state := .written } with
          lc := { s.lc with
            reservations := r :: rest.map fun x => if x.slot = c.slot then { x with state := .written } else x } }))
      ∧ (r.slot = c.slot → r.purpose = .capture → r.failure = none → r.level ≠ 0 → s.lc.durable < s.lc.live →
        (∀ x ∈ rest, x.slot ≠ c.slot) →
        let passed : State := { s with
          ce := { s.ce with contexts := s.ce.contexts.map fun x => x.filter fun y => decide (y.slot ≠ c.slot) }
          lc := { s.lc with reservations := rest, durable := s.lc.durable + 1 }
          hq := { s.hq with
            entries := s.hq.entries.map fun e => if e.capture = .depends c.slot then { e with capture := .free } else e }
          oc := { s.oc with
            stack := s.oc.stack.modify (r.level - 1) fun l => { l with captures := addCaptures l.captures 1 } }
          dp := s.dp.freed }
        exec .captureHeaderWriteComplete s = .next (finish s passed.advanceMark)
        ∧ ((∀ x ∈ rest, x.state ≠ .written) → passed.advanceMark = passed))

/-- The durable mark stands before an entry that is not WRITTEN, and passes one that is, then goes on; what follows
from each slot is reported before the next is passed, in ring order: a capture that was not voided is counted, a marker
is durable or, voided, has failed with its condition (R29, R31, R42, R86, R96). A run of captures is passed whole. A
marker's and a VOID record's completed write lets the mark go on from where it stands (R29, R30, R31). -/
def Obligations.DurableMarkPassesRun : Prop :=
  (∀ s : State, (∀ r rest, s.lc.reservations = r :: rest → r.state ≠ .written ∨ s.lc.live ≤ s.lc.durable) →
    s.advanceMark = s)
  ∧ (∀ (s : State) (r : Reservation) (rest : List Reservation), s.lc.reservations = r :: rest → r.state = .written →
    s.lc.durable < s.lc.live →
    let passed : State := { s.markPassed r rest with dp := s.dp }
    (r.purpose = .capture → r.failure ≠ none → s.advanceMark = passed.advanceMark)
    ∧ (r.purpose = .capture → r.failure = none → r.level ≠ 0 →
      s.advanceMark = ({ passed with oc := { s.oc with
        stack := s.oc.stack.modify (r.level - 1) fun l => { l with captures := addCaptures l.captures 1 } } } :
          State).advanceMark)
    ∧ (r.purpose = .marker → r.failure = none → s.advanceMark = (passed.markerDurable r).advanceMark)
    ∧ ∀ f, r.purpose = .marker → r.failure = some f →
      s.advanceMark = (passed.markerFailed (if f = .busy then .memBusy else .memError)).advanceMark)
  ∧ (∀ (s : State) (run rest : List Reservation), s.lc.reservations = run ++ rest →
    (∀ r ∈ run, r.state = .written ∧ r.purpose = .capture ∧ r.level ≠ 0) →
    (∀ r tail, rest = r :: tail → r.state ≠ .written) → s.lc.durable + run.length ≤ s.lc.live →
    s.advanceMark = { s with
      lc := { s.lc with reservations := rest, durable := s.lc.durable + run.length }
      ce := { s.ce with
        contexts := s.ce.contexts.map fun x => x.filter fun y => run.all fun r => decide (y.slot ≠ r.slot) }
      hq := { s.hq with
        entries := s.hq.entries.map fun e =>
          if run.any (fun r => decide (e.capture = .depends r.slot)) then { e with capture := .free } else e }
      oc := { s.oc with
        stack := run.foldl (fun stack r =>
          if r.failure = none then
            stack.modify (r.level - 1) fun l => { l with captures := addCaptures l.captures 1 }
          else stack) s.oc.stack } })
  ∧ ∀ (s : State) (slot : Nat), s.running →
    let marked : State := { s with
      dp := s.dp.freed
      lc := { s.lc with
        reservations := s.lc.reservations.map fun x => if x.slot = slot then { x with state := .written } else x } }
    (s.endsWith (.lcOpen slot) (.okay 0) → exec .markerWriteComplete s = .next (finish s marked.advanceMark))
    ∧ (s.endsWith (.lcVoid slot) (.okay 0) → exec .voidWriteComplete s = .next (finish s marked.advanceMark))

/-- A failed capture request voids its slot and raises CAPTURE_FAILED. Under STRICT the dependent write is refused and
the block leaves the filter; under POSTED every level breaks. A break request makes every level not yet broken broken,
an OPENING one too, with EPOCH_BROKEN for each in ascending order, and while SETTLING the first that breaks a level of
the rollback's range sets the range break (R42, R113, R184). After a DETACH is accepted the failure is ignored (R42,
R71, R88, R89, R90, R106, R150). -/
def Obligations.CaptureFailureHandled : Prop :=
  (∀ (s : State) (i : Nat) (c : Context) (part : CaptureStep) (f : MemFailure), s.running →
    s.ce.contexts[i]? = some (some c) → s.endsWith (.ce i part) (.failed f) →
    let cond : Condition := if f = .busy then .memBusy else .memError
    let u : State := { s with
      dp := s.dp.freed
      ce := { s.ce with contexts := s.ce.contexts.set i (some { c with failure := some f, state := .written }) }
      lc := { s.lc with
        reservations := s.lc.reservations.map fun x =>
          if x.slot = c.slot then { x with state := .voiding, failure := some f } else x
        writes := s.lc.writes ++ [.voidHeader c.slot] }
      eq := s.eq.push
        { kind := .captureFailed, level := BitVec.ofNat 8 c.level, condition := cond,
          serial := c.serial, argument := c.block } }
    (s.oc.detaching = false → s.opts.writeMode = .strict →
      exec (.captureRequestFailed f) s =
        .next (finish s { u.discardHeld (fun e => decide (e.capture = .depends c.slot)) with
        cf := s.cf.filter fun e => !(decide (e.block = c.block) && decide (e.level = c.level)) }))
    ∧ (s.oc.detaching = false → s.opts.writeMode = .posted →
      exec (.captureRequestFailed f) s = .next (finish s (u.breakAll cond c.block)))
    ∧ (s.oc.detaching = true → exec (.captureRequestFailed f) s = .next (finish s { s with dp := s.dp.freed })))
  ∧ ∀ (s : State) (cond : Condition) (block : Addr),
    let unbroken := s.oc.stack.zipIdx.filter fun p => !p.1.broken
    s.breakAll cond block = { s with
      oc := { s.oc with stack := s.oc.stack.map fun l => { l with broken := true } }
      eq := unbroken.foldl (fun q p => q.push
        { kind := .epochBroken, level := BitVec.ofNat 8 (p.2 + 1), condition := cond, serial := p.1.serial,
          argument := block }) s.eq
      re := { s.re with
        rangeBreak :=
          if s.re.stage = .settling ∧ s.re.rangeBreak = .none
              ∧ (s.oc.stack.drop (s.re.target - 1)).any (fun l => !l.broken) = true
          then cond else s.re.rangeBreak } }

/-! ## The log's formats and its own writes -/

/-- The layouts of the record headers with their CRC-32, the order of the ring test, and the places a restore may go
to: the fields of 12.2 at their offsets, the check word over the header without it and, for UNDO, the payload (R20,
R188); signature, check word, session and sequence tested in this order, the first that fails naming the condition
(R22, R189); a valid TRACK window outside the log area (R123, R145). -/
def Obligations.RecordsLaidOutAndTested : Prop :=
  let bits (w : BlockData) (start count : Nat) : List Bool := (List.range count).map fun i => w.getLsbD (start + i)
  let headerChecked (w : BlockData) : List Bool := bits w 0 192 ++ bits w 224 288
  (∀ (h : RecordHeader) (payload : BlockData),
    let laid (w : BlockData) : Prop :=
      w.extractLsb' 0 32 = 0x3C5A96E1#32
      ∧ w.extractLsb' 32 8 = (match h.kind with | .undo => 0x01#8 | .open_ => 0x02#8 | .void => 0x03#8)
      ∧ w.extractLsb' 40 8 = h.level ∧ w.extractLsb' 48 8 = 0x01#8 ∧ w.extractLsb' 56 8 = 0x00#8
      ∧ w.extractLsb' 64 32 = h.session ∧ w.extractLsb' 96 32 = h.sequence ∧ w.extractLsb' 128 32 = h.serial
      ∧ w.extractLsb' 160 32 = h.blockAddr ∧ w.extractLsb' 224 288 = 0#288
    laid h.encode ∧ laid (h.encodeUndo payload)
    ∧ h.encode.extractLsb' 192 32 = crc32 (headerChecked h.encode)
    ∧ (h.encodeUndo payload).extractLsb' 192 32 =
        crc32 (headerChecked (h.encodeUndo payload) ++ bits payload 0 512))
  ∧ (∀ input : List Bool, crc32 input =
      input.foldl (fun (r : Word32) b => if r.getLsbD 0 = b then r >>> 1 else (r >>> 1) ^^^ 0xEDB88320#32) 0xFFFFFFFF#32
        ^^^ 0xFFFFFFFF#32)
  ∧ (∀ (lc : LogState) (n slot : Nat) (h payload : BlockData),
    let kind : Option RecordKind :=
      if h.extractLsb' 0 32 = 0x3C5A96E1#32 ∧ h.extractLsb' 48 8 = 0x01#8 then
        if h.extractLsb' 32 8 = 0x01#8 then some .undo
        else if h.extractLsb' 32 8 = 0x02#8 then some .open_
        else if h.extractLsb' 32 8 = 0x03#8 then some .void
        else none
      else none
    headerKind h = kind ∧ headerSerial h = h.extractLsb' 128 32 ∧ headerBlockAddr h = h.extractLsb' 160 32
    ∧ (kind = none → ringTest lc n slot h payload = .fails .badSignature)
    ∧ ∀ k, kind = some k →
      let checks := h.extractLsb' 192 32 = crc32 (headerChecked h ++ if k = .undo then bits payload 0 512 else [])
      let inSession := h.extractLsb' 64 32 = lc.session
      let inSequence := h.extractLsb' 96 32 = lc.tailSequence + BitVec.ofNat 32 (ringDistance n lc.tail slot)
      (¬checks → ringTest lc n slot h payload = .fails .badCheck)
      ∧ (checks → ¬inSession → ringTest lc n slot h payload = .fails .badSession)
      ∧ (checks → inSession → ¬inSequence → ringTest lc n slot h payload = .fails .badSequence)
      ∧ (checks → inSession → inSequence → ringTest lc n slot h payload = .passes k))
  ∧ (∀ n tail slot : Nat, tail < n → slot < n →
      ringDistance n tail slot = if tail ≤ slot then slot - tail else slot + n - tail)
  ∧ ∀ (s : State) (a : Addr), s.restorable a = true ↔
      (∃ w ∈ s.windows, w.valid = true ∧ w.mode = .track ∧ w.base.toNat ≤ a.toNat ∧ a.toNat < w.limit.toNat)
      ∧ (s.log.slots = 0 ∨ a.toNat < s.log.base.toNat ∨ s.log.base.toNat + 0x80 + s.log.slots * 0x80 ≤ a.toNat)

/-- The anchors: the layout of 12.2 with its CRC-32 (R34, R188), which copy read is valid (R33) and which of two the
newer (R33; where their generations differ by 80000000H a free value decides, log 8), which copy an anchor is written
to and with which generation (R32), session, tail and tail sequence by occasion (R34, R141), the new session (R23,
R141), and the next serial a recovery leaves (R146). -/
def Obligations.AnchorsLaidOutAndChosen : Prop :=
  let bits (w : BlockData) (start count : Nat) : List Bool := (List.range count).map fun i => w.getLsbD (start + i)
  let check (w : BlockData) : Word32 := crc32 (bits w 0 224 ++ bits w 256 256)
  (∀ a : Anchor,
    let w := a.encode
    w.extractLsb' 0 32 = 0x3C5AA50F#32 ∧ w.extractLsb' 32 32 = a.generation ∧ w.extractLsb' 64 32 = a.session
    ∧ w.extractLsb' 96 32 = a.slots ∧ w.extractLsb' 128 32 = a.tail ∧ w.extractLsb' 160 32 = a.tailSequence
    ∧ w.extractLsb' 192 32 = a.nextSerial ∧ w.extractLsb' 224 32 = check w ∧ w.extractLsb' 256 256 = 0#256)
  ∧ (∀ (n : Nat) (w : BlockData) (a : Anchor), readAnchor n w = some a ↔
      w.extractLsb' 0 32 = 0x3C5AA50F#32 ∧ w.extractLsb' 224 32 = check w ∧ a.slots.toNat = n ∧ a.tail.toNat < n
      ∧ a = { generation := w.extractLsb' 32 32, session := w.extractLsb' 64 32, slots := w.extractLsb' 96 32,
              tail := w.extractLsb' 128 32, tailSequence := w.extractLsb' 160 32, nextSerial := w.extractLsb' 192 32 })
  ∧ (∀ a : Anchor, copyOf (some a) = { standing := .valid, generation := a.generation }
      ∧ copyOf none = { standing := .invalid, generation := 0 }
      ∧ selectAnchor none none = none ∧ selectAnchor (some a) none = some a ∧ selectAnchor none (some a) = some a
      ∧ formatSession (some a) = newSession a.session ∧ formatSession none = 1)
  ∧ (∀ a b : Anchor,
    let ahead := (a.generation - b.generation).toNat
    (ahead ≤ 0x7FFFFFFF → selectAnchor (some a) (some b) = some a)
    ∧ (0x80000000 < ahead → selectAnchor (some a) (some b) = some b)
    ∧ (selectAnchor (some a) (some b) = some a ∨ selectAnchor (some a) (some b) = some b))
  ∧ (∀ (s : State) (o : AnchorOccasion),
    let job := s.anchorJob o
    let a := s.lc.copyA
    let b := s.lc.copyB
    let ahead := (a.generation - b.generation).toNat
    let toA (generation : Word32) : Prop := job.copy = .a ∧ job.anchor.generation = generation
    let toB (generation : Word32) : Prop := job.copy = .b ∧ job.anchor.generation = generation
    (job.occasion = o ∧ job.anchor.slots = BitVec.ofNat 32 s.log.slots ∧ job.anchor.nextSerial = s.lc.nextSerial)
    ∧ (a.standing ≠ .valid → b.standing ≠ .valid → toA 1)
    ∧ (a.standing ≠ .valid → b.standing = .valid → toA (b.generation + 1))
    ∧ (a.standing = .valid → b.standing ≠ .valid → toB (a.generation + 1))
    ∧ (a.standing = .valid → b.standing = .valid →
      (ahead ≤ 0x7FFFFFFF → toB (a.generation + 1)) ∧ (0x80000000 < ahead → toA (b.generation + 1))
      ∧ (toB (a.generation + 1) ∨ toA (b.generation + 1)))
    ∧ job.anchor.session =
        (match o with
        | .attachKeep => newSession s.lc.session
        | .recovery => newSession s.lc.session
        | .formatA session => session
        | _ => s.lc.session)
    ∧ (job.anchor.tail, job.anchor.tailSequence) =
        (match o with
        | .attachKeep => (BitVec.ofNat 32 s.lc.tail, s.lc.tailSequence)
        | .formatA _ => (0, 1)
        | .formatB => (0, 1)
        | .rotateMarker slot sequence => (BitVec.ofNat 32 slot, sequence)
        | _ => (BitVec.ofNat 32 s.lc.head, s.lc.nextSequence)))
  ∧ (∀ w : Word32, newSession w = if w = 0xFFFFFFFF#32 then 1 else w + 1)
  ∧ ∀ next highest : Word32,
    (next = 0 ∨ highest = 0xFFFFFFFF#32 → recoveredSerial next highest = 0)
    ∧ (next ≠ 0 → highest ≠ 0xFFFFFFFF#32 → (recoveredSerial next highest).toNat = max next.toNat (highest.toNat + 1))

/-- An OPEN marker written in its turn makes its level durable: OPENED, and the timer starts with level 1. A failed one
voids its slot, wherever it stands in the ring: the reservation of that slot is VOIDING and the VOID header queued, or
after an accepted DETACH only the port freed. A VOID record written in its turn lets the mark pass: a capture's is not
counted, an OPEN's fails the OPEN, which at depth 0 first asks for the reclaiming anchor. The mark then goes on over
what stands written behind the slot (R29, R30, R31, R42, R51, R58, R150). -/
def Obligations.MarkerAndVoidWritesEnd : Prop :=
  (∀ (s : State) (slot : Nat) (f : MemFailure), s.running → s.endsWith (.lcOpen slot) (.failed f) →
    exec (.markerWriteFailed f) s = .next (finish s (
      if s.oc.detaching then { s with dp := s.dp.freed }
      else { s with
        dp := s.dp.freed
        lc := { s.lc with
          reservations := s.lc.reservations.map fun x =>
            if x.slot = slot then { x with state := .voiding, failure := some f } else x
          writes := s.lc.writes ++ [.voidHeader slot] } })))
  ∧ ∀ (s : State) (r : Reservation) (rest : List Reservation), s.running → s.lc.reservations = r :: rest →
    s.lc.durable < s.lc.live → (∀ x ∈ rest, x.slot ≠ r.slot) →
    let passed := s.markPassed r rest
    (s.endsWith (.lcOpen r.slot) (.okay 0) → r.purpose = .marker → r.failure = none → s.oc.phase = .openMarker →
      r.level ≠ 0 →
      exec .markerWriteComplete s = .next (finish s ({ passed with
        oc := { s.oc with
          stack := s.oc.stack.modify (r.level - 1) fun l => { l with durable := true }
          op := .idle, phase := .none, timer := if r.level = 1 then s.opts.fullPeriod else s.oc.timer }
        eq := s.eq.push { kind := .opened, level := BitVec.ofNat 8 r.level, condition := .none, serial := r.serial,
                          argument := BitVec.ofNat 32 r.slot } } : State).advanceMark))
    ∧ (s.endsWith (.lcVoid r.slot) (.okay 0) → r.purpose = .capture → r.failure ≠ none →
      exec .voidWriteComplete s = .next (finish s passed.advanceMark))
    ∧ (∀ (f : MemFailure) (below : List Level) (l : Level), s.endsWith (.lcVoid r.slot) (.okay 0) → r.purpose = .marker →
      r.failure = some f → s.oc.phase = .openMarker → s.oc.stack = below ++ [l] →
      let stamp : Word32 := (below.getLast?.map Level.serial).getD 0
      let failed : EventRecord :=
        { kind := .openFailed, level := BitVec.ofNat 8 (below.length + 1),
          condition := if f = .busy then .memBusy else .memError, serial := l.serial, argument := 0 }
      let popped : State := { passed with
        oc := { s.oc with stack := below, stamp := stamp }
        hq := { passed.hq with entries := passed.hq.entries.map fun e => e.restamp l.serial stamp }
        eq := s.eq.push failed }
      (below ≠ [] →
        exec .voidWriteComplete s =
          .next (finish s ({ popped with oc := { popped.oc with op := .idle, phase := .none } } : State).advanceMark))
      ∧ (below = [] →
        exec .voidWriteComplete s = .next (finish s ({ popped with
          oc := { popped.oc with phase := .openReclaim l.serial, timer := none, rotationPending := false }
          lc := { passed.lc with writes := s.lc.writes ++ [.anchor .openReclaim] } } : State).advanceMark)))

/-- A failed VOID or anchor write kills the log: reservations, writes and contexts are gone, the operation ends, the
part is FENCED for LOG_DEAD, and a latched assertion is dropped; every HELD TRACK write goes, a STRICT one with ERROR,
and every other write, the ring, windows, filter, options and configuration stand (R30, R36, R39, R46, R94, R107, R109,
R168, R169). An OPEN that dies with it is popped and raises OPEN_FAILED LOG_DEAD, a COMMIT leaves its level (R51, R54).
That the latched assertion is dropped in this very step is the model's reading (log 15), and so are the stamp that a
rotation or a reclaiming anchor leaves and that no write is restamped (log 13). An anchor write that fails in ATTACHING
fails the attach instead (R138); after an accepted DETACH it only leaves its copy INVALID, and a failed VOID write
nothing (R32, R150). -/
def Obligations.LogDeathFences : Prop :=
  (∀ (s : State) (f : MemFailure) (c : Instr), s.running → s.oc.detaching = false →
    (c = .voidWriteFailed f ∧ (∃ slot, s.endsWith (.lcVoid slot) (.failed f))
      ∨ c = .anchorWriteFailed f ∧ s.oc.mode ≠ .attaching ∧ ∃ job, s.endsWith (.lcAnchor job) (.failed f)) →
    let stack : List Level :=
      match s.oc.phase with
      | .openWait => s.oc.stack.dropLast
      | .openMarker => s.oc.stack.dropLast
      | .rotateLateMarker _ => s.oc.stack.dropLast
      | _ => s.oc.stack
    let innermost : Word32 := (stack.getLast?.map Level.serial).getD 0
    let openFailed (level : Nat) (serial : Word32) : EventRecord :=
      { kind := .openFailed, level := BitVec.ofNat 8 level, condition := .logDead, serial := serial, argument := 0 }
    let opened : List EventRecord :=
      match s.oc.phase with
      | .openWait => [openFailed s.oc.stack.length s.oc.innermost]
      | .openMarker => [openFailed s.oc.stack.length s.oc.innermost]
      | .openReclaim serial => [openFailed (s.oc.stack.length + 1) serial]
      | _ => []
    let stamp : Word32 :=
      match s.oc.phase with
      | .none => s.oc.stamp
      | .openReclaim _ => s.oc.stamp
      | .commitWait => s.oc.stamp
      | .commitAnchor => s.oc.stamp
      | .rotateReclaim => s.oc.stamp
      | _ => innermost
    let heldTrack (e : HoldEntry) : Bool := decide (e.cls = .track) && !e.issued
    let strict : Bool := s.hq.entries.any fun e => heldTrack e && !e.acknowledged
    let fenced : EventRecord :=
      { kind := .fenced, level := BitVec.ofNat 8 stack.length, condition := if f = .busy then .memBusy else .memError,
        serial := innermost, argument := 3 }
    let dropped : EventRecord :=
      { kind := .faultDropped, level := BitVec.ofNat 8 stack.length, condition := .none,
        serial := innermost, argument := 1 }
    ∃ t, exec c s = .next t
      ∧ (t.lc.dead = true ∧ t.lc.reservations = [] ∧ t.lc.writes = [] ∧ t.ce.contexts = [none, none, none, none]
        ∧ t.ce.episode = false ∧ t.dp.port = none ∧ t.re.stage = .idle)
      ∧ (t.oc.mode = .fenced ∧ t.oc.fence = .logDead ∧ t.oc.op = .idle ∧ t.oc.phase = .none ∧ t.oc.successor = none
        ∧ t.oc.bar = none ∧ t.oc.latch = false ∧ t.oc.timer = none ∧ t.oc.rotationPending = false)
      ∧ (∀ e ∈ t.hq.entries, e.cls = .track → e.issued = true)
      ∧ (s.up.unstalled → t.hq = { s.hq with entries := s.hq.entries.filter fun e => !heldTrack e })
      ∧ (strict = true → s.up.state = .writePending → t.up = s.up.answered false none)
      ∧ (strict = false → s.up.unstalled → t.up = s.up)
      ∧ (t.lc.tail = s.lc.tail ∧ t.lc.head = s.lc.head ∧ t.lc.live = s.lc.live ∧ t.lc.durable = s.lc.durable
        ∧ t.windows = s.windows ∧ t.log = s.log ∧ t.cf = s.cf ∧ t.opts = s.opts ∧ t.link = s.link)
      ∧ (t.oc.stack = stack ∧ t.oc.stamp = stamp)
      ∧ t.eq = (opened ++ [fenced] ++ if s.oc.latch then [dropped] else []).foldl EventQueue.push s.eq)
  ∧ (∀ (s : State) (f : MemFailure) (job : AnchorJob) (a : Attach), s.running → s.oc.detaching = false →
    s.oc.mode = .attaching → s.oc.attach = some a → s.endsWith (.lcAnchor job) (.failed f) →
    exec (.anchorWriteFailed f) s = .next (finish s { s with
      dp := s.dp.freed, lc := State.reset.lc, oc := { s.oc with attach := none, mode := .offline }
      eq := s.eq.push
        { kind := .attachFailed, level := 0, condition := if f = .busy then .memBusy else .memError, serial := 0,
          argument := if a.arg = .keep then 0 else 1 } }))
  ∧ ∀ (s : State) (f : MemFailure), s.running → s.oc.detaching = true →
    (∀ slot, s.endsWith (.lcVoid slot) (.failed f) →
      exec (.voidWriteFailed f) s = .next (finish s { s with dp := s.dp.freed }))
    ∧ ∀ job, s.endsWith (.lcAnchor job) (.failed f) →
      exec (.anchorWriteFailed f) s = .next (finish s { s with
        dp := s.dp.freed
        lc := { s.lc with
          copyA := if job.copy = .a then { s.lc.copyA with standing := .invalid } else s.lc.copyA
          copyB := if job.copy = .b then { s.lc.copyB with standing := .invalid } else s.lc.copyB } })

/-- An anchor written sets session, tail and tail sequence as it carries them, makes its copy VALID, and with its tail
given as head leaves no live slot (R32, R36). An outer COMMIT ends with it (R54), a rotation's new level 1 stands
(R56), a reclaimed VOID slot ends its operation (R51, R57), a rollback and a DISCARD end with their events, one from a
freeze ONLINE with the timer of its depth (R127, R128, R132), ATTACH KEEP and the second anchor of FORMAT lead to
ONLINE with ATTACHED, the first anchor of FORMAT to the second (R140, R141), and a recovery ends ONLINE with RECOVERED
(R146). High-water re-arms below the mark (R38), and free slots end a stall episode (R37, R91). That the durable count
is 0 with the live count is the model's reading (log 26). -/
def Obligations.AnchorWriteSetsRing : Prop :=
  ∀ (s : State) (job : AnchorJob), s.running → s.endsWith (.lcAnchor job) (.okay 0) →
    ∃ t, exec .anchorWriteComplete s = .next t
      ∧ (t.lc.session = job.anchor.session ∧ t.lc.tail = job.anchor.tail.toNat
        ∧ t.lc.tailSequence = job.anchor.tailSequence ∧ t.dp.port = none)
      ∧ (job.copy = .a →
          t.lc.copyA = { standing := .valid, generation := job.anchor.generation } ∧ t.lc.copyB = s.lc.copyB)
      ∧ (job.copy = .b →
          t.lc.copyB = { standing := .valid, generation := job.anchor.generation } ∧ t.lc.copyA = s.lc.copyA)
      ∧ (job.occasion ∈ [.commit, .openReclaim, .rotateReclaim, .rollback, .discard, .recovery] →
          t.lc.live = 0 ∧ t.lc.durable = 0 ∧ t.lc.head = s.lc.head)
      ∧ (job.occasion ≠ .rotateFirst →
          t.lc.armed = (s.lc.armed || decide (t.lc.live < s.opts.highWater))
          ∧ t.ce.episode = (s.ce.episode && !decide (t.lc.live < s.log.slots)))
      ∧ (∀ l, job.occasion = .commit → s.oc.stack = [l] →
          t.oc = { s.oc with
            stack := [], stamp := 0, bar := none, timer := none, rotationPending := false, op := .idle, phase := .none }
          ∧ t.cf = []
          ∧ t.eq = s.eq.push { kind := .committed, level := 1, condition := .none, serial := l.serial,
                               argument := l.captures }
          ∧ (s.up.unstalled → t.hq = { s.hq with entries := s.hq.entries.map fun e => e.restamp l.serial 0 }))
      ∧ (∀ slot w x, job.occasion = .rotateMarker slot w → s.oc.successor = some x →
          t.oc = { s.oc with
            stack := [{ serial := x.serial, start := some slot, durable := true, broken := false, captures := 0 }]
            successor := none, bar := none, timer := s.opts.fullPeriod, rotationPending := false, op := .idle
            phase := .none }
          ∧ t.cf = []
          ∧ t.eq = s.eq.push { kind := .rotated, level := 1, condition := .none, serial := x.serial,
                               argument := if x.origin = .command then 0 else 1 }
          ∧ (∀ old, s.oc.stack = [old] → s.up.unstalled →
              t.hq = { s.hq with entries := s.hq.entries.map fun e => e.restamp old.serial 0 })
          ∧ (1 < s.log.slots → slot < s.log.slots → job.anchor.tail.toNat = slot →
              s.lc.head = (slot + 1) % s.log.slots → (s.lc.tail + s.lc.durable) % s.log.slots = s.lc.head →
              t.lc.live = 1 ∧ t.lc.durable = 1))
      ∧ (job.occasion ∈ [.attachKeep, .formatB] → t.oc = { s.oc with mode := .online, attach := none }
          ∧ t.eq = s.eq.push { kind := .attached, level := 0, condition := .none, serial := job.anchor.session,
                               argument := if job.occasion = .attachKeep then 0 else 2 })
      ∧ (∀ session, job.occasion = .formatA session →
          t.oc = s.oc ∧ t.eq = s.eq ∧ t.lc.writes = s.lc.writes ++ [.anchor .formatB])
      ∧ (job.occasion = .recovery → t.oc = { s.oc with mode := .online } ∧ t.re = { s.re with stage := .idle }
          ∧ t.eq = s.eq.push { kind := .recovered, level := BitVec.ofNat 8 (min 255 s.re.opens), condition := .none,
                               serial := s.re.highest, argument := s.re.restored })
      ∧ (job.occasion ∈ [.openReclaim, .rotateReclaim] → t.oc = { s.oc with op := .idle, phase := .none } ∧ t.eq = s.eq)
      ∧ (job.occasion = .rollback →
          t.oc = { s.oc with
            op := .idle, phase := .none
            mode := if s.re.fromFreeze then .online else s.oc.mode
            fence := if s.re.fromFreeze then .none else s.oc.fence
            timer := if s.re.fromFreeze = true ∧ s.oc.stack ≠ [] then s.opts.fullPeriod else s.oc.timer }
          ∧ t.re = { s.re with stage := .idle }
          ∧ t.eq = s.eq.push { kind := .rolledBack, level := BitVec.ofNat 8 s.re.target, condition := .none,
                               serial := s.re.targetSerial, argument := s.re.restored })
      ∧ (job.occasion = .discard →
          t.oc = { s.oc with op := .idle, phase := .none } ∧ t.re = { s.re with stage := .idle }
          ∧ t.eq = s.eq.push { kind := .discarded, level := BitVec.ofNat 8 s.re.target, condition := s.re.haltCondition,
                               serial := s.re.targetSerial, argument := BitVec.ofNat 32 s.re.popped })

/-- A rotation's marker. With a free slot: written in its turn it lets the anchor be asked for; voided, the rotation is
abandoned and level 1 kept (R56). With none: the first anchor's completion replaces level 1 and asks for the marker at
head; written, ROTATED is raised; voided, level 1 is popped and an anchor asked for to free the slot (R57). After each
marker the mark goes on over what stands written behind its slot (R29), and a first anchor that frees slots ends a
stall episode (R37, R91). -/
def Obligations.RotationMarkersEnd : Prop :=
  ∀ (s : State) (x : Successor) (origin : RotationOrigin), s.running →
    let failedArgument (o : RotationOrigin) : Word32 := if o = .command then 1 else 2
    let failed (f : MemFailure) (serial : Word32) (o : RotationOrigin) : EventRecord :=
      { kind := .openFailed, level := 1, condition := if f = .busy then .memBusy else .memError, serial := serial,
        argument := failedArgument o }
    (∀ (r : Reservation) (rest : List Reservation), s.lc.reservations = r :: rest → s.lc.durable < s.lc.live →
      (∀ y ∈ rest, y.slot ≠ r.slot) → r.purpose = .marker →
      let passed := s.markPassed r rest
      (s.endsWith (.lcOpen r.slot) (.okay 0) → r.failure = none → s.oc.phase = .rotateMarker →
        exec .markerWriteComplete s = .next (finish s ({ passed with
          oc := { s.oc with phase := .rotateAnchor }
          lc := { passed.lc with writes := s.lc.writes ++ [.anchor (.rotateMarker r.slot r.sequence)] } } :
            State).advanceMark))
      ∧ (∀ f, s.endsWith (.lcVoid r.slot) (.okay 0) → r.failure = some f → s.oc.phase = .rotateMarker →
        s.oc.successor = some x →
        exec .voidWriteComplete s = .next (finish s ({ passed with
          oc := { s.oc with stamp := s.oc.innermost, bar := none, successor := none, op := .idle, phase := .none }
          hq := { passed.hq with entries := passed.hq.entries.map fun e => e.restamp x.serial s.oc.innermost }
          eq := s.eq.push (failed f x.serial x.origin) } : State).advanceMark))
      ∧ (s.endsWith (.lcOpen r.slot) (.okay 0) → r.failure = none → s.oc.phase = .rotateLateMarker origin →
        exec .markerWriteComplete s = .next (finish s ({ passed with
          oc := { s.oc with
            stack := s.oc.stack.modify 0 fun l => { l with durable := true }
            timer := s.opts.fullPeriod, rotationPending := false, op := .idle, phase := .none }
          eq := s.eq.push { kind := .rotated, level := 1, condition := .none, serial := r.serial,
                            argument := if origin = .command then 0 else 1 } } : State).advanceMark))
      ∧ (∀ f l, s.endsWith (.lcVoid r.slot) (.okay 0) → r.failure = some f → s.oc.phase = .rotateLateMarker origin →
        s.oc.stack = [l] →
        exec .voidWriteComplete s = .next (finish s ({ passed with
          oc := { s.oc with stack := [], stamp := 0, timer := none, rotationPending := false, phase := .rotateReclaim }
          lc := { passed.lc with writes := s.lc.writes ++ [.anchor .rotateReclaim] }
          hq := { passed.hq with entries := passed.hq.entries.map fun e => e.restamp l.serial 0 }
          eq := s.eq.push (failed f l.serial origin) } : State).advanceMark)))
    ∧ (∀ job old, s.endsWith (.lcAnchor job) (.okay 0) → job.occasion = .rotateFirst → s.oc.successor = some x →
      s.oc.stack = [old] →
      ∃ t, exec .anchorWriteComplete s = .next t
        ∧ t.oc = { s.oc with
            stack := [{ serial := x.serial, start := some s.lc.head, durable := false, broken := false, captures := 0 }]
            successor := none, bar := none, phase := .rotateLateMarker x.origin }
        ∧ t.cf = [] ∧ t.lc.live = 1 ∧ t.lc.durable = 0 ∧ t.lc.head = (s.lc.head + 1) % s.log.slots
        ∧ (s.log.slots ≠ 0 → t.ce.episode = false)
        ∧ t.lc.writes = s.lc.writes ++ [.openHeader s.lc.head]
        ∧ (s.up.unstalled → t.hq = { s.hq with entries := s.hq.entries.map fun e => e.restamp old.serial 0 }))

/-! ## Attach, recovery, detach -/

/-- ATTACH's checks and acceptance: the HELD writes to the log go, each acknowledged one with WRITE_LOST; then the
drain lasts until no TRACK entry is held, ATTACH_DRAIN_END doing nothing before that or in another phase (R11, R111,
R137). That WRITE_LOST carries level 0 and serial 0 is the model's reading (log 12), and that of several the oldest
entry's comes first is its choice (log 32). -/
def Obligations.AttachAcceptedAndDrained : Prop :=
  ∀ (s : State) (arg : Byte),
    let c : Instr := if arg = 0x01 then .attachFormat else .attachKeep arg
    let kind : AttachArg := if arg = 0x01 then .format else .keep
    let attaching := { s.oc with mode := .attaching, attach := some { phase := .draining, arg := kind } }
    (s.linked → s.oc.mode ≠ .offline → exec c s = .next { s with link := s.link.showing .state [] })
    ∧ (s.linked → s.oc.mode = .offline → arg ≠ 0x00 → arg ≠ 0x01 →
        exec c s = .next { s with link := s.link.showing .arg [] })
    ∧ (s.linked → s.oc.mode = .offline → arg = 0x00 ∨ arg = 0x01 → s.log.slots = 0 →
        exec c s = .next { s with link := s.link.showing .state [] })
    ∧ (s.linked → s.oc.mode = .offline → arg = 0x00 ∨ arg = 0x01 → s.log.slots ≠ 0 →
        (∀ e ∈ s.hq.entries, e.cls = .log → e.issued = true) →
        exec c s =
          .next { finish s { s with oc := attaching, lc := State.reset.lc } with link := s.link.showing .accepted [] })
    ∧ (s.linked → s.oc.mode = .offline → arg = 0x00 ∨ arg = 0x01 → s.log.slots ≠ 0 →
        exec c s = .next { finish s { s.discardHeld (fun e => decide (e.cls = .log)) with
          oc := attaching, lc := State.reset.lc
          eq := (s.hq.entries.filter fun e => !e.issued && decide (e.cls = .log) && e.acknowledged).foldl (fun q e => q.push
            { kind := .writeLost, level := 0, condition := .none, serial := 0, argument := e.addr }) s.eq }
          with link := s.link.showing .accepted [] })
    ∧ (∀ pre e post, s.linked → s.oc.mode = .offline → arg = 0x00 ∨ arg = 0x01 → s.log.slots ≠ 0 →
        s.hq.entries = pre ++ e :: post → e.cls = .log → e.issued = false →
        (∀ x ∈ pre ++ post, x.cls = .log → x.issued = true) →
        (e.acknowledged = true →
          exec c s = .next { finish s { s with
            oc := attaching, lc := State.reset.lc, hq := { s.hq with entries := pre ++ post }
            eq := s.eq.push { kind := .writeLost, level := 0, condition := .none, serial := 0, argument := e.addr } }
            with link := s.link.showing .accepted [] })
        ∧ (e.acknowledged = false → s.up.state = .writePending →
          exec c s = .next { finish s { s with
            oc := attaching, lc := State.reset.lc, hq := { s.hq with entries := pre ++ post }
            up := s.up.answered false none } with link := s.link.showing .accepted [] }))
    ∧ (∀ a, s.running → s.oc.mode = .attaching → s.oc.attach = some a → a.phase = .draining →
        (∀ e ∈ s.hq.entries, e.cls ≠ .track) →
        exec .attachDrainEnd s = .next (finish s { s with
          oc := { s.oc with attach := some { a with phase := .reading } }, lc := { s.lc with attachRead := .anchorA } }))
    ∧ (s.running → (s.oc.mode ≠ .attaching ∨ (∀ a, s.oc.attach = some a → a.phase ≠ .draining)
          ∨ ∃ e ∈ s.hq.entries, e.cls = .track) →
        exec .attachDrainEnd s = .next s)

/-- The attach reads both anchors; a failed read fails the attach. KEEP takes the ring of the selected copy, or fails
with NO_ANCHOR; FORMAT sets a new ring and writes anchor A. KEEP then reads the record at tail: a valid one leads to
SUSPECT, any other to the anchor with a new session (R22, R33, R138, R139, R140, R141). -/
def Obligations.AttachReadsRing : Prop :=
  ∀ (s : State) (at_ : Attach), s.running → s.oc.attach = some at_ →
    let lost (c : Condition) : State := { s with
      dp := s.dp.freed, lc := State.reset.lc, oc := { s.oc with attach := none, mode := .offline }
      eq := s.eq.push { kind := .attachFailed, level := 0, condition := c, serial := 0,
                        argument := if at_.arg = .keep then 0 else 1 } }
    let writing := { s.oc with attach := some { at_ with phase := .writing } }
    let tested (header payload : BlockData) : State :=
      match ringTest s.lc s.log.slots s.lc.tail header payload with
      | .passes _ => { s with
          dp := s.dp.freed, lc := { s.lc with attachRead := .none }, oc := { s.oc with mode := .suspect, attach := none }
          eq := s.eq.push { kind := .attached, level := 0, condition := .none, serial := s.lc.session, argument := 1 } }
      | .fails _ => { s with
          dp := s.dp.freed, oc := writing
          lc := { s.lc with attachRead := .none, writes := s.lc.writes ++ [.anchor .attachKeep] } }
    (∀ o f, (o = .lcReadA ∨ ∃ a, o = .lcReadB a) → s.endsWith o (.failed f) →
      exec (.anchorReadComplete (.failed f)) s = .next (finish s (lost (if f = .busy then .memBusy else .memError))))
    ∧ (∀ d, s.endsWith .lcReadA (.okay d) →
      exec (.anchorReadComplete (.okay d)) s = .next (finish s { s with
        dp := s.dp.freed
        lc := { s.lc with
          copyA := copyOf (readAnchor s.log.slots d), attachRead := .anchorB (readAnchor s.log.slots d) } }))
    ∧ (∀ a d, s.endsWith (.lcReadB a) (.okay d) → at_.arg = .keep →
      let b := readAnchor s.log.slots d
      (a = none → b = none → exec (.anchorReadComplete (.okay d)) s = .next (finish s (lost .noAnchor)))
      ∧ ∀ x, selectAnchor a b = some x →
        exec (.anchorReadComplete (.okay d)) s = .next (finish s { s with
          dp := s.dp.freed
          lc := { s.lc with
            copyB := copyOf b, session := x.session, tail := x.tail.toNat, tailSequence := x.tailSequence
            head := x.tail.toNat, live := 0, durable := 0, nextSequence := x.tailSequence, nextSerial := x.nextSerial
            armed := true, attachRead := .tailHeader } }))
    ∧ (∀ a d, s.endsWith (.lcReadB a) (.okay d) → at_.arg = .format →
      exec (.anchorReadComplete (.okay d)) s = .next (finish s { s with
        dp := s.dp.freed, oc := writing
        lc := { s.lc with
          tail := 0, tailSequence := 1, head := 0, live := 0, durable := 0, nextSequence := 1, nextSerial := 1
          armed := true, copyA := { standing := .unknown, generation := 0 }
          copyB := { standing := .unknown, generation := 0 }, attachRead := .none
          writes := s.lc.writes ++
            [.anchor (.formatA (formatSession (selectAnchor a (readAnchor s.log.slots d))))] } }))
    ∧ (∀ h, s.endsWith .lcTailHeader (.okay h) →
      exec (.tailReadComplete (.okay h)) s = .next (finish s (
        if headerKind h = some .undo then
          { s with dp := s.dp.freed, lc := { s.lc with attachRead := .tailPayload h } }
        else tested h 0)))
    ∧ (∀ h p, s.endsWith (.lcTailPayload h) (.okay p) →
      exec (.tailReadComplete (.okay p)) s = .next (finish s (tested h p)))
    ∧ ∀ o f, (o = .lcTailHeader ∨ ∃ h, o = .lcTailPayload h) → s.endsWith o (.failed f) →
      exec (.tailReadComplete (.failed f)) s = .next (finish s (lost (if f = .busy then .memBusy else .memError)))

/-- RECOVER in SUSPECT starts the scan at tail (R142). A slot that passes the ring test is counted and the scan goes
on, to the end of the ring at most; the first that fails ends it. Head stands where the scan ended, and the replay
starts at the slot before, or, where no record was found, the final anchor is asked for (R143, R144, R146). An abort
takes effect once the slot in hand is done: at the next slot, or at the scan's end at the slot the replay would start
with; with no record found it is cleared (R148). A read that fails halts the recovery (R147). That abort requested
stays set at an ABORTED halt is the model's reading (log 23), and that RECOVER starts the scan also after a DETACH has
been accepted in SUSPECT is its choice (log 34). -/
def Obligations.RecoveryStartsAndScans : Prop :=
  ∀ s : State,
    (s.linked → s.oc.mode ≠ .suspect → exec .recover s = .next { s with link := s.link.showing .state [] })
    ∧ (s.linked → s.oc.mode = .suspect →
        exec .recover s = .next { finish s { s with
          oc := { s.oc with mode := .recovering }
          re := { s.re with
            stage := .scanning, purpose := .recovery, cursor := s.lc.tail, restored := 0, abortRequested := false
            haltCondition := .none, resumeScanning := true, scanned := 0, opens := 0, highest := 0, handling := .header } }
          with link := s.link.showing .accepted [] })
    ∧ (s.running → s.re.stage = .scanning →
        let prev (slot : Nat) : Nat := (slot + s.log.slots - 1) % s.log.slots
        let halted (re : RestoreEngine) (lc : LogState) (c : Condition) (cursor : Nat) : State := { s with
          dp := s.dp.freed, lc := lc
          re := { re with stage := .halted, haltCondition := c, cursor := cursor, handling := .header }
          eq := s.eq.push { kind := .recoveryHalted, level := 0, condition := c, serial := 0,
                            argument := BitVec.ofNat 32 cursor } }
        let ended (re : RestoreEngine) (head : Nat) : State :=
          let lc := { s.lc with
            head := head, live := re.scanned, durable := re.scanned
            nextSequence := s.lc.tailSequence + BitVec.ofNat 32 re.scanned }
          let replaying := { re with
            stage := .replaying, resumeScanning := false, cursor := prev head, handling := .header }
          if re.scanned = 0 then { s with
            dp := s.dp.freed
            re := { re with stage := .anchoring, abortRequested := false, handling := .header }
            lc := { lc with
              nextSerial := recoveredSerial s.lc.nextSerial re.highest, writes := s.lc.writes ++ [.anchor .recovery] } }
          else if re.abortRequested then halted replaying lc .aborted (prev head)
          else { s with dp := s.dp.freed, lc := lc, re := replaying }
        (∀ h, s.re.handling = .header → s.endsWith .re (.okay h) → headerKind h = some .undo →
          exec (.scanReadComplete (.okay h)) s = .next (finish s { s with
            dp := s.dp.freed, re := { s.re with handling := .payload h } }))
        ∧ (∀ header data : BlockData, s.endsWith .re (.okay data) →
            (s.re.handling = .header ∧ header = data ∧ headerKind data ≠ some .undo ∨ s.re.handling = .payload header) →
            let payload := if s.re.handling = .header then 0 else data
            let test := ringTest s.lc s.log.slots s.re.cursor header payload
            (∀ k, test = .passes k →
              let next := (s.re.cursor + 1) % s.log.slots
              let counted := { s.re with
                scanned := s.re.scanned + 1
                opens := if k = .open_ then s.re.opens + 1 else s.re.opens
                highest :=
                  if s.re.highest.toNat < (headerSerial header).toNat then headerSerial header else s.re.highest }
              exec (.scanReadComplete (.okay data)) s = .next (finish s (
                if s.log.slots ≤ s.re.scanned + 1 then ended counted s.lc.tail
                else if s.re.abortRequested then halted counted s.lc .aborted next
                else { s with dp := s.dp.freed, re := { counted with cursor := next, handling := .header } })))
            ∧ ∀ c, test = .fails c →
              exec (.scanReadComplete (.okay data)) s = .next (finish s (ended s.re s.re.cursor)))
        ∧ ∀ f, s.endsWith .re (.failed f) → (∀ a d, s.re.handling ≠ .restore a d) →
            exec (.scanReadComplete (.failed f)) s = .next (finish s (
              halted { s.re with abortRequested := false } s.lc (if f = .busy then .memBusy else .memError) s.re.cursor)))

/-- A recovery's replay handles the slot at the cursor: an UNDO record that passes is restored if its block is in the
tracked memory and halts the recovery if not, an OPEN or VOID record that passes needs nothing. The cursor then steps
back, where an abort takes effect; past the tail the final anchor is asked for, and an abort is cleared. A read that
fails, a record that fails, or a failed restore write, halts the recovery, an abort cleared (R145 to R148). That abort
requested stays set at an ABORTED halt is the model's reading (log 23). -/
def Obligations.RecoveryReplays : Prop :=
  ∀ s : State, s.running → s.re.stage = .replaying → s.re.purpose = .recovery →
    let halted (re : RestoreEngine) (c : Condition) (cursor : Nat) : State := { s with
      dp := s.dp.freed
      re := { re with stage := .halted, haltCondition := c, cursor := cursor, handling := .header }
      eq := s.eq.push { kind := .recoveryHalted, level := 0, condition := c, serial := 0,
                        argument := BitVec.ofNat 32 cursor } }
    let failed (c : Condition) : State := halted { s.re with abortRequested := false } c s.re.cursor
    let done (n : Word32) : State :=
      let prev := (s.re.cursor + s.log.slots - 1) % s.log.slots
      let re := { s.re with restored := n }
      if s.re.cursor = s.lc.tail then { s with
        dp := s.dp.freed
        re := { re with stage := .anchoring, abortRequested := false, handling := .header }
        lc := { s.lc with
          nextSerial := recoveredSerial s.lc.nextSerial s.re.highest, writes := s.lc.writes ++ [.anchor .recovery] } }
      else if s.re.abortRequested then halted re .aborted prev
      else { s with dp := s.dp.freed, re := { re with cursor := prev, handling := .header } }
    (∀ h, s.re.handling = .header → s.endsWith .re (.okay h) → headerKind h = some .undo →
      exec (.recoveryReadComplete (.okay h)) s = .next (finish s { s with
        dp := s.dp.freed, re := { s.re with handling := .payload h } }))
    ∧ (∀ f, s.endsWith .re (.failed f) → (∀ a d, s.re.handling ≠ .restore a d) →
      exec (.recoveryReadComplete (.failed f)) s =
        .next (finish s (failed (if f = .busy then .memBusy else .memError))))
    ∧ (∀ header data : BlockData, s.endsWith .re (.okay data) →
      (s.re.handling = .header ∧ header = data ∧ headerKind data ≠ some .undo ∨ s.re.handling = .payload header) →
      let payload := if s.re.handling = .header then 0 else data
      let test := ringTest s.lc s.log.slots s.re.cursor header payload
      (∀ c, test = .fails c → exec (.recoveryReadComplete (.okay data)) s = .next (finish s (failed c)))
      ∧ (test = .passes .undo → exec (.recoveryReadComplete (.okay data)) s = .next (finish s (
          if s.restorable (headerBlockAddr header) then
            { s with dp := s.dp.freed, re := { s.re with handling := .restore (headerBlockAddr header) payload } }
          else failed .badAddress)))
      ∧ ∀ k, test = .passes k → k ≠ .undo →
        exec (.recoveryReadComplete (.okay data)) s = .next (finish s (done s.re.restored)))
    ∧ (∀ a d b, s.re.handling = .restore a d → s.endsWith .re (.okay b) →
      exec (.recoveryRestoreComplete (.okay b)) s = .next (finish s (done (s.re.restored + 1))))
    ∧ (∀ a d f, s.re.handling = .restore a d → s.endsWith .re (.failed f) →
      exec (.recoveryRestoreComplete (.failed f)) s =
        .next (finish s (failed (if f = .busy then .memBusy else .memError))))

/-- DETACH is accepted in SUSPECT, in a halted RECOVERING, in ONLINE at IDLE and depth 0, in FENCED at IDLE, and over a
halted rollback; its acceptance stops the timer and what the LC had to do. The waits last until no request of the LC,
the RE or the CE is in flight and no TRACK write is issued; DETACH_COMPLETE does nothing before that, nor with no
DETACH accepted. Then the detach completes: the HELD TRACK writes are dropped, and the part is OFFLINE with only
windows, log configuration, options, events, PASS writes and the FAULT line kept (R74, R94, R110, R150, R151). A
latched assertion is dropped at the completion (R168), with level 0 and serial 0 before DETACHED by the model's reading
(log 14). The flag of an accepted DETACH is the model's own field (log 10). -/
def Obligations.DetachAcceptedAndCompleted : Prop :=
  ∀ s : State,
    let stopped := { s.oc with timer := none, rotationPending := false, detaching := true }
    let cleared := { s.lc with writes := [], attachRead := .none }
    (s.linked → s.oc.mode = .offline ∨ s.oc.mode = .attaching →
        exec .detach s = .next { s with link := s.link.showing .state [] })
    ∧ (s.linked → s.oc.mode = .online → s.oc.op = .idle → s.oc.stack ≠ [] →
        exec .detach s = .next { s with link := s.link.showing .depth [] })
    ∧ (s.linked → (s.oc.mode = .recovering ∧ s.re.stage ≠ .halted
          ∨ (s.oc.mode = .online ∨ s.oc.mode = .fenced) ∧ s.oc.op ≠ .idle ∧ ¬(s.oc.op = .halted ∧ s.re.stage = .halted)) →
        exec .detach s = .next { s with link := s.link.showing .busy [] })
    ∧ (s.linked → (s.oc.mode = .suspect ∨ s.oc.mode = .recovering ∧ s.re.stage = .halted) →
        exec .detach s =
          .next { finish s { s with oc := stopped, lc := cleared } with link := s.link.showing .accepted [] })
    ∧ (s.linked → (s.oc.mode = .online ∧ s.oc.op = .idle ∧ s.oc.stack = [] ∨ s.oc.mode = .fenced ∧ s.oc.op = .idle
          ∨ (s.oc.mode = .online ∨ s.oc.mode = .fenced) ∧ s.oc.op = .halted ∧ s.re.stage = .halted) →
        exec .detach s = .next { finish s { s with oc := { stopped with op := .detaching }, lc := cleared }
          with link := s.link.showing .accepted [] })
    ∧ (s.running → s.oc.detaching = true →
        (∀ a, s.dp.port = some a → a.owner.requester = .masterPath) →
        (∀ e ∈ s.hq.entries, e.cls = .track → e.issued = false) →
        exec .detachComplete s = .next (finish s { s.discardHeld (fun e => decide (e.cls = .track)) with
          cf := [], ce := State.reset.ce, lc := State.reset.lc, re := State.reset.re
          oc := { State.reset.oc with faultLine := s.oc.faultLine }
          eq :=
            (if s.oc.latch then
              s.eq.push { kind := .faultDropped, level := 0, condition := .none, serial := 0, argument := 1 }
            else s.eq).push
              { kind := .detached, level := 0, condition := .none, serial := 0,
                argument := BitVec.ofNat 32 (s.discardCount fun e => decide (e.cls = .track)) } }))
    ∧ (s.running → (s.oc.detaching = false ∨ (∃ a, s.dp.port = some a ∧ a.owner.requester ≠ .masterPath)
          ∨ ∃ e ∈ s.hq.entries, e.cls = .track ∧ e.issued = true) →
        exec .detachComplete s = .next s)

/-! ## Rollback -/

/-- ROLLBACK's checks in order and its acceptance: the range's HELD writes are discarded, their acknowledged count is
the result's data, and the restore engine settles (R108, R115, R117). That the cursor stays until SETTLING ends is the
model's reading (log 22). -/
def Obligations.RollbackAccepted : Prop :=
  ∀ (s : State) (j : Byte), s.linked →
    let range := s.oc.stack.drop (j.toNat - 1)
    let inRange (e : HoldEntry) : Bool := range.any fun l => decide (l.serial = e.stamp)
    let refused (code : ResultCode) : Prop := exec (.rollback j) s = .next { s with link := s.link.showing code [] }
    let allowed := s.oc.mode = .online ∨ s.oc.mode = .fenced ∧ s.oc.fence = .frozen
    (¬allowed → refused .state)
    ∧ (allowed → s.oc.op ≠ .idle → refused .busy)
    ∧ (allowed → s.oc.op = .idle → s.oc.stack = [] → refused .depth)
    ∧ (allowed → s.oc.op = .idle → s.oc.stack ≠ [] → (j.toNat = 0 ∨ s.oc.stack.length < j.toNat) → refused .arg)
    ∧ (allowed → s.oc.op = .idle → 1 ≤ j.toNat → j.toNat ≤ s.oc.stack.length →
        (range.any (·.broken) = true → refused .broken)
        ∧ (range.any (·.broken) = false →
          exec (.rollback j) s = .next { finish s { s.discardHeld inRange with
            oc := { s.oc with op := .rolling }
            re := { s.re with
              stage := .settling, purpose := .rollback, origin := .command, target := j.toNat
              targetSerial := s.oc.serialAt j.toNat, fromFreeze := decide (s.oc.mode = .fenced)
              restored := 0, abortRequested := false, haltCondition := .none, rangeBreak := .none, handling := .header } }
            with link := s.link.showing .accepted (bigEndianNat (s.discardCount inRange)) }))

/-- SETTLING lasts until every context is free and no TRACK request is held or pending: SETTLING_END does nothing
before that, and nothing in another stage. Then it ends: a range broken meanwhile halts the rollback, then a requested
abort does, else the replay starts at the slot before head (R119, R121, R129). That abort requested stays set at these
halts is the model's reading (log 23). -/
def Obligations.SettlingEnds : Prop :=
  ∀ s : State, s.running →
    let settled := (∀ c ∈ s.ce.contexts, c = none) ∧ (∀ e ∈ s.hq.entries, e.cls ≠ .track)
      ∧ ∀ p, s.hq.read = some p → p.cls ≠ .track
    let last := (s.lc.head + s.log.slots - 1) % s.log.slots
    let halted (c : Condition) : State := { s with
      re := { s.re with stage := .halted, haltCondition := c, cursor := last, handling := .header }
      oc := { s.oc with op := .halted }
      eq := s.eq.push { kind := .rollbackHalted, level := BitVec.ofNat 8 s.re.target, condition := c,
                        serial := s.re.targetSerial, argument := BitVec.ofNat 32 last } }
    let broken := (s.oc.stack.drop (s.re.target - 1)).any (·.broken)
    (s.re.stage ≠ .settling ∨ ¬settled → exec .settlingEnd s = .next s)
    ∧ (s.re.stage = .settling → settled → broken = true →
        exec .settlingEnd s = .next (finish s (halted s.re.rangeBreak)))
    ∧ (s.re.stage = .settling → settled → broken = false → s.re.abortRequested = true →
        exec .settlingEnd s = .next (finish s (halted .aborted)))
    ∧ (s.re.stage = .settling → settled → broken = false → s.re.abortRequested = false →
        exec .settlingEnd s = .next (finish s { s with
          re := { s.re with stage := .replaying, cursor := last, handling := .header } }))

/-- A rollback's replay handles the slot at the cursor. A record that fails the ring test or the rollback's own tests
of serial, block address and start slot, in that order, or a read or restore write that fails, halts the rollback, an
abort cleared (R122, R123, R129, R130). An UNDO record that passes is restored; a VOID record, and an OPEN record at no
start slot, needs nothing; the innermost level's own OPEN record pops it (R124, R125). The cursor then steps back,
where an abort takes effect, but at the target level the rollback ends, an abort cleared: at level 1 with the anchor
asked for, else with ROLLED_BACK, and one from a freeze ONLINE with the timer running (R127, R128, R130). That abort
requested stays set at an ABORTED halt is the model's reading (log 23). -/
def Obligations.ReplayHandlesSlot : Prop :=
  ∀ s : State, s.running → s.re.stage = .replaying → s.re.purpose = .rollback →
    let halted (t : State) (c : Condition) (cursor : Nat) : State := { t with
      dp := s.dp.freed
      re := { t.re with stage := .halted, haltCondition := c, cursor := cursor, handling := .header }
      oc := { t.oc with op := .halted }
      eq := s.eq.push { kind := .rollbackHalted, level := BitVec.ofNat 8 s.re.target, condition := c,
                        serial := s.re.targetSerial, argument := BitVec.ofNat 32 cursor } }
    let failed (c : Condition) : State := halted { s with re := { s.re with abortRequested := false } } c s.re.cursor
    let done (t : State) : State :=
      let prev := (s.re.cursor + s.log.slots - 1) % s.log.slots
      if s.re.abortRequested then halted t .aborted prev
      else { t with dp := s.dp.freed, re := { t.re with cursor := prev, handling := .header } }
    let atStart := s.oc.stack.getLast?.bind Level.start = some s.re.cursor
    (∀ h, s.re.handling = .header → s.endsWith .re (.okay h) → headerKind h = some .undo →
      exec (.replayReadComplete (.okay h)) s = .next (finish s { s with
        dp := s.dp.freed, re := { s.re with handling := .payload h } }))
    ∧ (∀ f, s.endsWith .re (.failed f) → (∀ a d, s.re.handling ≠ .restore a d) →
      exec (.replayReadComplete (.failed f)) s =
        .next (finish s (failed (if f = .busy then .memBusy else .memError))))
    ∧ (∀ header data : BlockData, s.endsWith .re (.okay data) →
      (s.re.handling = .header ∧ header = data ∧ headerKind data ≠ some .undo ∨ s.re.handling = .payload header) →
      let payload := if s.re.handling = .header then 0 else data
      let test := ringTest s.lc s.log.slots s.re.cursor header payload
      let leaves (t : State) : Prop := exec (.replayReadComplete (.okay data)) s = .next (finish s t)
      (∀ c, test = .fails c → leaves (failed c))
      ∧ ∀ k, test = .passes k →
        let old := (headerSerial header).toNat < s.re.targetSerial.toNat
        let outside := k = .undo ∧ s.restorable (headerBlockAddr header) = false
        (old → leaves (failed .badSerial))
        ∧ (¬old → outside → leaves (failed .badAddress))
        ∧ (¬old → ¬outside → atStart → ¬(k = .open_ ∧ headerSerial header = s.oc.innermost) → leaves (failed .badSerial))
        ∧ (¬old → ¬outside → ¬atStart → k = .undo → leaves { s with
            dp := s.dp.freed, re := { s.re with handling := .restore (headerBlockAddr header) payload } })
        ∧ (¬old → ¬atStart → k ≠ .undo → leaves (done s))
        ∧ ∀ (base : List Level) (l : Level), ¬old → k = .open_ → s.oc.stack = base ++ [l] → l.start = some s.re.cursor →
          headerSerial header = l.serial →
          let popped : State := { s with
            oc := { s.oc with stack := base, stamp := (base.getLast?.map Level.serial).getD 0 }
            cf := s.cf.filter fun e => decide (e.level ≠ base.length + 1) }
          let ending := { s.re with abortRequested := false, handling := .header }
          (base ≠ [] → s.re.target < base.length + 1 → leaves (done popped))
          ∧ (base ≠ [] → s.re.target = base.length + 1 → leaves { popped with
              dp := s.dp.freed
              re := { ending with stage := .idle }
              oc := { popped.oc with
                op := .idle, phase := .none
                mode := if s.re.fromFreeze then .online else s.oc.mode
                fence := if s.re.fromFreeze then .none else s.oc.fence
                timer := if s.re.fromFreeze then s.opts.fullPeriod else s.oc.timer }
              eq := s.eq.push { kind := .rolledBack, level := BitVec.ofNat 8 s.re.target, condition := .none,
                                serial := s.re.targetSerial, argument := s.re.restored } })
          ∧ (base = [] → s.re.target = 1 → leaves { popped with
              dp := s.dp.freed
              oc := { popped.oc with timer := none, rotationPending := false }
              re := { ending with stage := .anchoring }
              lc := { s.lc with writes := s.lc.writes ++ [.anchor .rollback] } }))
    ∧ (∀ a d b, s.re.handling = .restore a d → s.endsWith .re (.okay b) →
      exec (.restoreWriteComplete (.okay b)) s =
        .next (finish s (done { s with re := { s.re with restored := s.re.restored + 1 } })))
    ∧ (∀ a d f, s.re.handling = .restore a d → s.endsWith .re (.failed f) →
      exec (.restoreWriteComplete (.failed f)) s =
        .next (finish s (failed (if f = .busy then .memBusy else .memError))))

/-- ABORT's, RESUME's and DISCARD's checks (R130, R131, R132, R148, R149). An accepted ABORT is remembered, an accepted
RESUME handles the slot at the cursor again from its header. A DISCARD pops the levels from the target to the depth
with their filter entries; where none is left it asks for its anchor, else it breaks those left, with EPOCH_BROKEN for
each not yet broken in ascending order, and ends with DISCARDED (R70, R132, R184). That RESUME moves a halted recovery
on also after a DETACH has been accepted over it is the model's choice (log 34). -/
def Obligations.AbortResumeDiscard : Prop :=
  ∀ s : State, s.linked →
    let refused (c : Instr) (code : ResultCode) : Prop := exec c s = .next { s with link := s.link.showing code [] }
    let running := s.oc.op = .rolling ∨ s.oc.mode = .recovering ∧ s.re.stage ≠ .halted
    let recoveryHalted := s.oc.mode = .recovering ∧ s.re.stage = .halted
    let resumed : RestoreEngine := { s.re with abortRequested := false, haltCondition := .none, handling := .header }
    (¬running → refused .abort .state)
    ∧ (running → s.re.stage = .anchoring → refused .abort .busy)
    ∧ (running → s.re.stage ≠ .anchoring →
        exec .abort s =
          .next { finish s { s with re := { s.re with abortRequested := true } } with link := s.link.showing .ok [] })
    ∧ (s.oc.op ≠ .halted → ¬recoveryHalted → refused .resume .state)
    ∧ (s.oc.op = .halted → s.re.stage = .anchoring → refused .resume .busy)
    ∧ (s.oc.op = .halted → ¬recoveryHalted → s.re.stage ≠ .anchoring →
        ((s.oc.stack.drop (s.re.target - 1)).any (·.broken) = true → refused .resume .broken)
        ∧ ((s.oc.stack.drop (s.re.target - 1)).any (·.broken) = false →
          exec .resume s = .next { finish s { s with
            re := { resumed with stage := .replaying }, oc := { s.oc with op := .rolling } }
            with link := s.link.showing .accepted [] }))
    ∧ (recoveryHalted →
        exec .resume s = .next { finish s { s with
          re := { resumed with stage := if s.re.resumeScanning then .scanning else .replaying } }
          with link := s.link.showing .accepted [] })
    ∧ (s.oc.op ≠ .halted → refused .discard .state)
    ∧ (s.oc.op = .halted → s.re.stage = .anchoring → refused .discard .busy)
    ∧ ∀ kept popped : List Level, s.oc.op = .halted → s.re.stage = .halted → s.oc.stack = kept ++ popped → popped ≠ [] →
      s.re.target = kept.length + 1 →
      let cf := s.cf.filter fun e => decide (e.level < s.re.target) || decide (s.oc.stack.length < e.level)
      let broken (q : EventQueue) (p : Level × Nat) : EventQueue :=
        if p.1.broken then q
        else q.push { kind := .epochBroken, level := BitVec.ofNat 8 (p.2 + 1), condition := s.re.haltCondition,
                      serial := p.1.serial, argument := 0 }
      (kept = [] →
        exec .discard s = .next { finish s { s with
          oc := { s.oc with stack := [], stamp := 0, timer := none, rotationPending := false }
          cf := cf
          re := { s.re with purpose := .discard, stage := .anchoring, popped := popped.length }
          lc := { s.lc with writes := s.lc.writes ++ [.anchor .discard] } } with link := s.link.showing .accepted [] })
      ∧ (kept ≠ [] →
        exec .discard s = .next { finish s { s with
          oc := { s.oc with
            stack := kept.map fun l => { l with broken := true }
            stamp := (kept.getLast?.map Level.serial).getD 0, op := .idle, phase := .none }
          cf := cf
          re := { s.re with stage := .idle, popped := popped.length }
          eq := (kept.zipIdx.foldl broken s.eq).push
            { kind := .discarded, level := BitVec.ofNat 8 s.re.target, condition := s.re.haltCondition,
              serial := s.re.targetSerial, argument := BitVec.ofNat 32 popped.length } }
          with link := s.link.showing .ok [] })

/-! ## The downstream port -/

/-- When the four requests of the arbiter stand. A held entry is eligible once it is capture-ready and the order of its
block, of PASS writes, the freeze and an accepted DETACH let it issue (R100, R101, R110); the item the master path
gives is the oldest eligible entry, and its pending read, younger than every entry, once no HELD write it must wait for
is left (R102, R103). The LC, RE and CE ask while they have a write, a read or a ready context, the LC while it lives,
and none of the three once a DETACH is accepted (R75, R159, R161; that SUSPECT and RECOVERING bar them and TRACK
entries too is log 10). -/
def Obligations.RequestsStandAsRuled : Prop :=
  ∀ s : State,
    let barred := s.oc.detaching = true ∨ s.oc.op = .detaching
      ∨ s.oc.mode = .fenced ∧ s.oc.fence = .frozen ∧ s.oc.op = .idle
    (∀ (older : List HoldEntry) (e : HoldEntry), s.eligible older e = true ↔
      e.issued = false ∧ e.capture = .free
      ∧ (∀ o ∈ older, o.issued = false → o.block ≠ e.block)
      ∧ (e.cls ≠ .track → ∀ o ∈ older, o.issued = true)
      ∧ (∀ o ∈ older, o.issued = false → o.cls = .track)
      ∧ ¬(e.cls = .track ∧ barred))
    ∧ (∀ e, s.oldestEligible [] s.hq.entries = some e ↔
      ∃ older younger, s.hq.entries = older ++ e :: younger ∧ s.eligible older e = true
        ∧ ∀ pre x post, older = pre ++ x :: post → s.eligible pre x = false)
    ∧ (s.readEligible = true ↔
      ∃ p, s.hq.read = some p ∧ ∀ e ∈ s.hq.entries, e.issued = false → p.cls = .track ∧ e.block ≠ blockOf p.addr)
    ∧ (s.stands .masterPath = true ↔ (∃ e, s.oldestEligible [] s.hq.entries = some e) ∨ s.readEligible = true)
    ∧ (s.stands .lc = true ↔
      (s.lc.writes ≠ [] ∨ s.lc.attachRead ≠ .none) ∧ s.lc.dead = false ∧ s.oc.detaching = false)
    ∧ (s.stands .re = true ↔ (s.re.stage = .replaying ∨ s.re.stage = .scanning) ∧ s.oc.detaching = false)
    ∧ (s.stands .ce = true ↔ (∃ c, some c ∈ s.ce.contexts
        ∧ (c.state = .reading ∨ c.state = .writingPayload ∨ c.state = .writingHeader)) ∧ s.oc.detaching = false)

/-- The arbiter grants LC, RE, CE, master path in that order, but for a master path whose fairness count stands at 4;
where requests came to stand together at a port at which none stood, the one named is taken (the model's, log 17). A
master path's grant gives its oldest eligible item with the address, mask and data it holds. A failure below the limit
is counted and the request presented again unchanged (R101 to R103, R153, R155, R156, R159, R160, R162). -/
def Obligations.GrantAndReissue : Prop :=
  ∀ (s : State) (first : Requester), s.running →
    (s.dp.port.isSome = true → exec (.downstreamGrant first) s = .next s)
    ∧ (s.dp.calm = false →
        (s.stands .masterPath = true → s.dp.fairness = 4 → s.arbitrate first = some .masterPath)
        ∧ (s.stands .masterPath = false ∨ s.dp.fairness ≠ 4 →
            (s.stands .lc = true → s.arbitrate first = some .lc)
            ∧ (s.stands .lc = false → s.stands .re = true → s.arbitrate first = some .re)
            ∧ (s.stands .lc = false → s.stands .re = false → s.stands .ce = true → s.arbitrate first = some .ce)
            ∧ (s.stands .lc = false → s.stands .re = false → s.stands .ce = false → s.stands .masterPath = true →
                s.arbitrate first = some .masterPath)))
    ∧ (s.dp.calm = true → s.stands first = true → s.arbitrate first = some first)
    ∧ (∀ e, s.dp.port = none → s.arbitrate first = some .masterPath → s.oldestEligible [] s.hq.entries = some e →
        exec (.downstreamGrant first) s = .next (finish s { s with
          hq := { s.hq with entries := s.hq.entries.map fun x => if x.order = e.order then { x with issued := true } else x }
          dp := {
            port := some { owner := .masterWrite e.order, request := e.request, failures := 0, limit := s.opts.retryLimit,
                           last := none }
            fairness := 0, calm := false } }))
    ∧ (∀ p, s.dp.port = none → s.arbitrate first = some .masterPath → s.oldestEligible [] s.hq.entries = none →
        s.hq.read = some p →
        exec (.downstreamGrant first) s = .next (finish s { s with
          dp := {
            port := some { owner := .masterRead, request := if p.isBlock then .readBlock p.addr else .readWord p.addr,
                           failures := 0, limit := s.opts.retryLimit, last := none }
            fairness := 0, calm := false } }))
    ∧ (∀ o rest, s.dp.port = none → s.arbitrate first = some .lc → s.lc.writes = .anchor o :: rest →
        exec (.downstreamGrant first) s = .next (finish s { s with
          lc := { s.lc with writes := rest }
          dp := {
            port := some { owner := .lcAnchor (s.anchorJob o),
                           request := .writeBlock (s.log.anchorAddr (s.anchorJob o).copy) (s.anchorJob o).anchor.encode,
                           failures := 0, limit := s.opts.retryLimit, last := none }
            fairness := if s.stands .masterPath then min 4 (s.dp.fairness + 1) else s.dp.fairness
            calm := false } }))
    ∧ (∀ (a : ActiveRequest) (f : MemFailure), s.dp.port = some a → a.failures + 1 < a.limit →
        exec (.downstreamReissue f) s = .next (finish s { s with
          dp := { s.dp with port := some { a with failures := a.failures + 1, last := some f } } }))
    ∧ (∀ (a : ActiveRequest) (f : MemFailure), s.dp.port = some a → a.limit ≤ a.failures + 1 →
        exec (.downstreamReissue f) s = .next s)

/-- What LC, RE and CE present when granted: the LC's oldest write with its record's header, or its attach read; the
RE's read or restore write at the cursor; the request of the ready context whose slot lies nearest tail. Each goes to
the block of R18, with the limit in force, and a standing master path is counted past (R18, R20, R30, R31, R84, R85,
R122, R124, R139, R140, R143, R145, R155, R157, R159, R160, R161). -/
def Obligations.LogAndRestoreGrants : Prop :=
  ∀ (s : State) (first : Requester), s.running → s.dp.port = none →
    let header (slot : Nat) : Addr := s.log.base + BitVec.ofNat 32 (0x80 + slot * 0x80)
    let payload (slot : Nat) : Addr := s.log.base + BitVec.ofNat 32 (0x80 + slot * 0x80) + 0x40
    let presents (t : State) (owner : Owner) (request : MemRequest) : Prop :=
      exec (.downstreamGrant first) s = .next (finish s { t with
        dp := {
          port := some { owner := owner, request := request, failures := 0, limit := s.opts.retryLimit, last := none }
          fairness := if s.stands .masterPath then min 4 (s.dp.fairness + 1) else s.dp.fairness
          calm := false } })
    (s.arbitrate first = some .lc →
      (∀ slot (e : Reservation) rest, s.lc.reservation slot = some e →
        let record (kind : RecordKind) : RecordHeader :=
          { kind := kind, level := BitVec.ofNat 8 e.level, session := s.lc.session, sequence := e.sequence,
            serial := e.serial, blockAddr := 0 }
        let t : State := { s with lc := { s.lc with writes := rest } }
        (s.lc.writes = .openHeader slot :: rest →
          presents t (.lcOpen slot) (.writeBlock (header slot) (record .open_).encode))
        ∧ (s.lc.writes = .voidHeader slot :: rest →
            presents t (.lcVoid slot) (.writeBlock (header slot) (record .void).encode)))
      ∧ (s.lc.writes = [] →
        (s.lc.attachRead = .anchorA → presents s .lcReadA (.readBlock s.log.base))
        ∧ (∀ a, s.lc.attachRead = .anchorB a → presents s (.lcReadB a) (.readBlock (s.log.base + 0x40)))
        ∧ (s.lc.attachRead = .tailHeader → presents s .lcTailHeader (.readBlock (header s.lc.tail)))
        ∧ ∀ h, s.lc.attachRead = .tailPayload h → presents s (.lcTailPayload h) (.readBlock (payload s.lc.tail))))
    ∧ (s.arbitrate first = some .re →
      (s.re.handling = .header → presents s .re (.readBlock (header s.re.cursor)))
      ∧ (∀ h, s.re.handling = .payload h → presents s .re (.readBlock (payload s.re.cursor)))
      ∧ ∀ a d, s.re.handling = .restore a d → presents s .re (.writeBlock a d))
    ∧ ∀ i c, s.arbitrate first = some .ce → s.ce.contexts[i]? = some (some c) →
      (∀ (j : Nat) (x : Context), j ≠ i → s.ce.contexts[j]? = some (some x) →
        x.state = .reading ∨ x.state = .writingPayload ∨ x.state = .writingHeader →
        ringDistance s.log.slots s.lc.tail c.slot < ringDistance s.log.slots s.lc.tail x.slot) →
      (c.state = .reading → presents s (.ce i .read) (.readBlock c.block))
      ∧ (c.state = .writingPayload → presents s (.ce i .payload) (.writeBlock (payload c.slot) c.bytes))
      ∧ (c.state = .writingHeader →
        let record : RecordHeader :=
          { kind := .undo, level := BitVec.ofNat 8 c.level, session := s.lc.session,
            sequence := ((s.lc.reservation c.slot).map Reservation.sequence).getD 0,
              serial := c.serial, blockAddr := c.block }
        presents s (.ce i .header) (.writeBlock (header c.slot) (record.encodeUndo c.bytes)))

/-! ## Invariants that every step keeps -/

/-- Every step keeps the bounds: at most 16 event records and a lost count of at most 255 (R183), at most 8 hold
entries, and at most 1 in STRICT mode (R97). It keeps the count that every request received has been answered exactly
once, but for the one the port holds (R2, R3), and that a frame is in progress only while CS is low and RESETn released
(R175). -/
def Obligations.QueuesBoundedAnswersCounted : Prop :=
  ∀ s t : State, step s = .next t →
    (s.queuesBounded → t.queuesBounded) ∧ (s.answersCounted → t.answersCounted) ∧ (s.frameFits → t.frameFits)

/-- Every step keeps the map: eight windows, each valid one in whole pages within the address space; no two valid
windows share a byte; the log configuration is none or in the range of R18 within the address space; and no valid window
shares a byte with the log area (R6, R7, R18, R19). -/
def Obligations.MapStaysDisjoint : Prop :=
  ∀ s t : State, s.mapDisjoint → step s = .next t → t.mapDisjoint

/-- Every step keeps the filter orderly: no block has two entries, ways are 0 to 3, and two entries of one set stand in
different ways (R62, R63, R65); and where the part is orderly, its stack ordered and one operation at work, every
entry's level lies between 1 and the depth, its marker durable (R45, R63, R77). -/
def Obligations.FilterStaysOrderly : Prop :=
  ∀ s t : State, step s = .next t →
    (s.filterOrderly → t.filterOrderly)
    ∧ (s.orderly → s.stackOrdered → s.operationFits → s.filterLevelsFit → t.filterLevelsFit)

/-- Every step keeps what the mode promises: an attach only in ATTACHING, a fence reason only in FENCED, operations,
levels, captures and reservations only in ONLINE and FENCED, outside OFFLINE a configured log with no HELD write of
class LOG, and of the restore engine, the log's writes and the downstream port what the mode allows (R10, R46, R113,
R135, R137, R142, R169). -/
def Obligations.ModesStayOrderly : Prop :=
  ∀ s t : State, s.orderly → step s = .next t → t.orderly

/-- Every step of an orderly part keeps the epoch stack: at most 6 levels, serials not 0 and strictly rising inward,
and every serial in use below the next serial unless the supply is used up (R25, R40, R43). And it keeps one operation
at a time: the phase goes with the operation state, only the level an OPEN or a no-slot rotation is at work on has no
durable marker, and at most one anchor and one marker are due, those the operation waits for (R28, R34, R40, R46, R48,
R57). -/
def Obligations.EpochStackStaysOrdered : Prop :=
  ∀ s t : State, s.orderly → step s = .next t →
    (s.stackOrdered → t.stackOrdered) ∧ (s.operationFits → t.operationFits)

/-- Every step of an orderly part keeps the durable count within the live count and the live count within the slot
count (R26), and the scanned count below it while a scan runs or may be resumed (R143, R144). That an anchor's
completion keeps the durable count within the live count whatever its tail is the model's (log 26). -/
def Obligations.RingStaysBounded : Prop :=
  ∀ s t : State, s.orderly → s.ringBounded → step s = .next t → t.ringBounded

/-- Every step keeps the part quiet: no context stays in ORDER_WAIT without an older HELD write to its block (R83), and
the fairness count is 0 unless the master path's request stands (R160). -/
def Obligations.StepsEndQuiet : Prop :=
  ∀ s t : State, s.quiet → step s = .next t → t.quiet

/-- Every step of an orderly part keeps it so that a request is stalled for SITUATION only where the table of R12 stalls
it, and for QUEUE only where it is a write to be held (R2, R12, R14, R15). -/
def Obligations.StallsStayJustified : Prop :=
  ∀ s t : State, s.orderly → s.stallsJustified → step s = .next t → t.stallsJustified
end

