-- ==== Sys2Proof/Laws/State.lean ====
section
/-! SUPPORT. What each shared update leaves in each part of the state: one lemma per update and part, true by
definition, so that no proof unfolds a record update. -/

namespace Sys2Proof.Machine

variable (s : State)


/-! ### raise -/

@[simp] theorem State.raise_resetLow (k : EventKind) (n : Nat) (c : Condition) (w a : Word32) :
    (s.raise k n c w a).resetLow = s.resetLow := rfl
@[simp] theorem State.raise_up (k : EventKind) (n : Nat) (c : Condition) (w a : Word32) :
    (s.raise k n c w a).up = s.up := rfl
@[simp] theorem State.raise_windows (k : EventKind) (n : Nat) (c : Condition) (w a : Word32) :
    (s.raise k n c w a).windows = s.windows := rfl
@[simp] theorem State.raise_log (k : EventKind) (n : Nat) (c : Condition) (w a : Word32) :
    (s.raise k n c w a).log = s.log := rfl
@[simp] theorem State.raise_lc (k : EventKind) (n : Nat) (c : Condition) (w a : Word32) :
    (s.raise k n c w a).lc = s.lc := rfl
@[simp] theorem State.raise_hq (k : EventKind) (n : Nat) (c : Condition) (w a : Word32) :
    (s.raise k n c w a).hq = s.hq := rfl
@[simp] theorem State.raise_cf (k : EventKind) (n : Nat) (c : Condition) (w a : Word32) :
    (s.raise k n c w a).cf = s.cf := rfl
@[simp] theorem State.raise_ce (k : EventKind) (n : Nat) (c : Condition) (w a : Word32) :
    (s.raise k n c w a).ce = s.ce := rfl
@[simp] theorem State.raise_oc (k : EventKind) (n : Nat) (c : Condition) (w a : Word32) :
    (s.raise k n c w a).oc = s.oc := rfl
@[simp] theorem State.raise_re (k : EventKind) (n : Nat) (c : Condition) (w a : Word32) :
    (s.raise k n c w a).re = s.re := rfl
@[simp] theorem State.raise_dp (k : EventKind) (n : Nat) (c : Condition) (w a : Word32) :
    (s.raise k n c w a).dp = s.dp := rfl
@[simp] theorem State.raise_eq (k : EventKind) (n : Nat) (c : Condition) (w a : Word32) :
    (s.raise k n c w a).eq =
      s.eq.push { kind := k, level := BitVec.ofNat 8 n, condition := c, serial := w, argument := a } := rfl
@[simp] theorem State.raise_link (k : EventKind) (n : Nat) (c : Condition) (w a : Word32) :
    (s.raise k n c w a).link = s.link := rfl
@[simp] theorem State.raise_opts (k : EventKind) (n : Nat) (c : Condition) (w a : Word32) :
    (s.raise k n c w a).opts = s.opts := rfl
@[simp] theorem State.raise_pending (k : EventKind) (n : Nat) (c : Condition) (w a : Word32) :
    (s.raise k n c w a).pending = s.pending := rfl

/-! ### answer -/

@[simp] theorem State.answer_resetLow (r : Response) : (s.answer r).resetLow = s.resetLow := rfl
@[simp] theorem State.answer_up (r : Response) : (s.answer r).up = s.up.answer r := rfl
@[simp] theorem State.answer_windows (r : Response) : (s.answer r).windows = s.windows := rfl
@[simp] theorem State.answer_log (r : Response) : (s.answer r).log = s.log := rfl
@[simp] theorem State.answer_lc (r : Response) : (s.answer r).lc = s.lc := rfl
@[simp] theorem State.answer_hq (r : Response) : (s.answer r).hq = s.hq := rfl
@[simp] theorem State.answer_cf (r : Response) : (s.answer r).cf = s.cf := rfl
@[simp] theorem State.answer_ce (r : Response) : (s.answer r).ce = s.ce := rfl
@[simp] theorem State.answer_oc (r : Response) : (s.answer r).oc = s.oc := rfl
@[simp] theorem State.answer_re (r : Response) : (s.answer r).re = s.re := rfl
@[simp] theorem State.answer_dp (r : Response) : (s.answer r).dp = s.dp := rfl
@[simp] theorem State.answer_eq (r : Response) : (s.answer r).eq = s.eq := rfl
@[simp] theorem State.answer_link (r : Response) : (s.answer r).link = s.link := rfl
@[simp] theorem State.answer_opts (r : Response) : (s.answer r).opts = s.opts := rfl
@[simp] theorem State.answer_pending (r : Response) : (s.answer r).pending = s.pending := rfl

/-! ### restamp -/

@[simp] theorem State.restamp_resetLow (o n : Word32) : (s.restamp o n).resetLow = s.resetLow := rfl
@[simp] theorem State.restamp_up (o n : Word32) : (s.restamp o n).up = s.up := rfl
@[simp] theorem State.restamp_windows (o n : Word32) : (s.restamp o n).windows = s.windows := rfl
@[simp] theorem State.restamp_log (o n : Word32) : (s.restamp o n).log = s.log := rfl
@[simp] theorem State.restamp_lc (o n : Word32) : (s.restamp o n).lc = s.lc := rfl
@[simp] theorem State.restamp_hq (o n : Word32) :
    (s.restamp o n).hq = { s.hq with entries := s.hq.entries.map fun e => e.restamp o n } := rfl
@[simp] theorem State.restamp_cf (o n : Word32) : (s.restamp o n).cf = s.cf := rfl
@[simp] theorem State.restamp_ce (o n : Word32) : (s.restamp o n).ce = s.ce := rfl
@[simp] theorem State.restamp_oc (o n : Word32) : (s.restamp o n).oc = s.oc := rfl
@[simp] theorem State.restamp_re (o n : Word32) : (s.restamp o n).re = s.re := rfl
@[simp] theorem State.restamp_dp (o n : Word32) : (s.restamp o n).dp = s.dp := rfl
@[simp] theorem State.restamp_eq (o n : Word32) : (s.restamp o n).eq = s.eq := rfl
@[simp] theorem State.restamp_link (o n : Word32) : (s.restamp o n).link = s.link := rfl
@[simp] theorem State.restamp_opts (o n : Word32) : (s.restamp o n).opts = s.opts := rfl
@[simp] theorem State.restamp_pending (o n : Word32) : (s.restamp o n).pending = s.pending := rfl

/-! ### setLevel -/

@[simp] theorem State.setLevel_resetLow (k : Nat) (f : Level → Level) : (s.setLevel k f).resetLow = s.resetLow := rfl
@[simp] theorem State.setLevel_up (k : Nat) (f : Level → Level) : (s.setLevel k f).up = s.up := rfl
@[simp] theorem State.setLevel_windows (k : Nat) (f : Level → Level) : (s.setLevel k f).windows = s.windows := rfl
@[simp] theorem State.setLevel_log (k : Nat) (f : Level → Level) : (s.setLevel k f).log = s.log := rfl
@[simp] theorem State.setLevel_lc (k : Nat) (f : Level → Level) : (s.setLevel k f).lc = s.lc := rfl
@[simp] theorem State.setLevel_hq (k : Nat) (f : Level → Level) : (s.setLevel k f).hq = s.hq := rfl
@[simp] theorem State.setLevel_cf (k : Nat) (f : Level → Level) : (s.setLevel k f).cf = s.cf := rfl
@[simp] theorem State.setLevel_ce (k : Nat) (f : Level → Level) : (s.setLevel k f).ce = s.ce := rfl
@[simp] theorem State.setLevel_oc (k : Nat) (f : Level → Level) :
    (s.setLevel k f).oc = { s.oc with stack := if k = 0 then s.oc.stack else s.oc.stack.modify (k - 1) f } := rfl
@[simp] theorem State.setLevel_re (k : Nat) (f : Level → Level) : (s.setLevel k f).re = s.re := rfl
@[simp] theorem State.setLevel_dp (k : Nat) (f : Level → Level) : (s.setLevel k f).dp = s.dp := rfl
@[simp] theorem State.setLevel_eq (k : Nat) (f : Level → Level) : (s.setLevel k f).eq = s.eq := rfl
@[simp] theorem State.setLevel_link (k : Nat) (f : Level → Level) : (s.setLevel k f).link = s.link := rfl
@[simp] theorem State.setLevel_opts (k : Nat) (f : Level → Level) : (s.setLevel k f).opts = s.opts := rfl
@[simp] theorem State.setLevel_pending (k : Nat) (f : Level → Level) : (s.setLevel k f).pending = s.pending := rfl

/-! ### startTimer -/

@[simp] theorem State.startTimer_resetLow : (s.startTimer).resetLow = s.resetLow := rfl
@[simp] theorem State.startTimer_up : (s.startTimer).up = s.up := rfl
@[simp] theorem State.startTimer_windows : (s.startTimer).windows = s.windows := rfl
@[simp] theorem State.startTimer_log : (s.startTimer).log = s.log := rfl
@[simp] theorem State.startTimer_lc : (s.startTimer).lc = s.lc := rfl
@[simp] theorem State.startTimer_hq : (s.startTimer).hq = s.hq := rfl
@[simp] theorem State.startTimer_cf : (s.startTimer).cf = s.cf := rfl
@[simp] theorem State.startTimer_ce : (s.startTimer).ce = s.ce := rfl
@[simp] theorem State.startTimer_oc :
    (s.startTimer).oc =
      { s.oc with timer := if s.opts.rotationPeriod = 0 then none else some s.opts.rotationPeriod } := rfl
@[simp] theorem State.startTimer_re : (s.startTimer).re = s.re := rfl
@[simp] theorem State.startTimer_dp : (s.startTimer).dp = s.dp := rfl
@[simp] theorem State.startTimer_eq : (s.startTimer).eq = s.eq := rfl
@[simp] theorem State.startTimer_link : (s.startTimer).link = s.link := rfl
@[simp] theorem State.startTimer_opts : (s.startTimer).opts = s.opts := rfl
@[simp] theorem State.startTimer_pending : (s.startTimer).pending = s.pending := rfl

/-! ### stopTimer -/

@[simp] theorem State.stopTimer_resetLow : (s.stopTimer).resetLow = s.resetLow := rfl
@[simp] theorem State.stopTimer_up : (s.stopTimer).up = s.up := rfl
@[simp] theorem State.stopTimer_windows : (s.stopTimer).windows = s.windows := rfl
@[simp] theorem State.stopTimer_log : (s.stopTimer).log = s.log := rfl
@[simp] theorem State.stopTimer_lc : (s.stopTimer).lc = s.lc := rfl
@[simp] theorem State.stopTimer_hq : (s.stopTimer).hq = s.hq := rfl
@[simp] theorem State.stopTimer_cf : (s.stopTimer).cf = s.cf := rfl
@[simp] theorem State.stopTimer_ce : (s.stopTimer).ce = s.ce := rfl
@[simp] theorem State.stopTimer_oc : (s.stopTimer).oc = { s.oc with timer := none, rotationPending := false } := rfl
@[simp] theorem State.stopTimer_re : (s.stopTimer).re = s.re := rfl
@[simp] theorem State.stopTimer_dp : (s.stopTimer).dp = s.dp := rfl
@[simp] theorem State.stopTimer_eq : (s.stopTimer).eq = s.eq := rfl
@[simp] theorem State.stopTimer_link : (s.stopTimer).link = s.link := rfl
@[simp] theorem State.stopTimer_opts : (s.stopTimer).opts = s.opts := rfl
@[simp] theorem State.stopTimer_pending : (s.stopTimer).pending = s.pending := rfl

/-! ### endOperation -/

@[simp] theorem State.endOperation_resetLow : (s.endOperation).resetLow = s.resetLow := rfl
@[simp] theorem State.endOperation_up : (s.endOperation).up = s.up := rfl
@[simp] theorem State.endOperation_windows : (s.endOperation).windows = s.windows := rfl
@[simp] theorem State.endOperation_log : (s.endOperation).log = s.log := rfl
@[simp] theorem State.endOperation_lc : (s.endOperation).lc = s.lc := rfl
@[simp] theorem State.endOperation_hq : (s.endOperation).hq = s.hq := rfl
@[simp] theorem State.endOperation_cf : (s.endOperation).cf = s.cf := rfl
@[simp] theorem State.endOperation_ce : (s.endOperation).ce = s.ce := rfl
@[simp] theorem State.endOperation_oc : (s.endOperation).oc = { s.oc with op := .idle, phase := .none } := rfl
@[simp] theorem State.endOperation_re : (s.endOperation).re = s.re := rfl
@[simp] theorem State.endOperation_dp : (s.endOperation).dp = s.dp := rfl
@[simp] theorem State.endOperation_eq : (s.endOperation).eq = s.eq := rfl
@[simp] theorem State.endOperation_link : (s.endOperation).link = s.link := rfl
@[simp] theorem State.endOperation_opts : (s.endOperation).opts = s.opts := rfl
@[simp] theorem State.endOperation_pending : (s.endOperation).pending = s.pending := rfl

/-! ### queueWrite -/

@[simp] theorem State.queueWrite_resetLow (w : LogWrite) : (s.queueWrite w).resetLow = s.resetLow := rfl
@[simp] theorem State.queueWrite_up (w : LogWrite) : (s.queueWrite w).up = s.up := rfl
@[simp] theorem State.queueWrite_windows (w : LogWrite) : (s.queueWrite w).windows = s.windows := rfl
@[simp] theorem State.queueWrite_log (w : LogWrite) : (s.queueWrite w).log = s.log := rfl
@[simp] theorem State.queueWrite_lc (w : LogWrite) :
    (s.queueWrite w).lc = { s.lc with writes := s.lc.writes ++ [w] } := rfl
@[simp] theorem State.queueWrite_hq (w : LogWrite) : (s.queueWrite w).hq = s.hq := rfl
@[simp] theorem State.queueWrite_cf (w : LogWrite) : (s.queueWrite w).cf = s.cf := rfl
@[simp] theorem State.queueWrite_ce (w : LogWrite) : (s.queueWrite w).ce = s.ce := rfl
@[simp] theorem State.queueWrite_oc (w : LogWrite) : (s.queueWrite w).oc = s.oc := rfl
@[simp] theorem State.queueWrite_re (w : LogWrite) : (s.queueWrite w).re = s.re := rfl
@[simp] theorem State.queueWrite_dp (w : LogWrite) : (s.queueWrite w).dp = s.dp := rfl
@[simp] theorem State.queueWrite_eq (w : LogWrite) : (s.queueWrite w).eq = s.eq := rfl
@[simp] theorem State.queueWrite_link (w : LogWrite) : (s.queueWrite w).link = s.link := rfl
@[simp] theorem State.queueWrite_opts (w : LogWrite) : (s.queueWrite w).opts = s.opts := rfl
@[simp] theorem State.queueWrite_pending (w : LogWrite) : (s.queueWrite w).pending = s.pending := rfl

/-! ### slotWritten -/

@[simp] theorem State.slotWritten_resetLow (n : Nat) : (s.slotWritten n).resetLow = s.resetLow := rfl
@[simp] theorem State.slotWritten_up (n : Nat) : (s.slotWritten n).up = s.up := rfl
@[simp] theorem State.slotWritten_windows (n : Nat) : (s.slotWritten n).windows = s.windows := rfl
@[simp] theorem State.slotWritten_log (n : Nat) : (s.slotWritten n).log = s.log := rfl
@[simp] theorem State.slotWritten_lc (n : Nat) :
    (s.slotWritten n).lc = s.lc.setReservation n fun e => { e with state := .written } := rfl
@[simp] theorem State.slotWritten_hq (n : Nat) : (s.slotWritten n).hq = s.hq := rfl
@[simp] theorem State.slotWritten_cf (n : Nat) : (s.slotWritten n).cf = s.cf := rfl
@[simp] theorem State.slotWritten_ce (n : Nat) : (s.slotWritten n).ce = s.ce := rfl
@[simp] theorem State.slotWritten_oc (n : Nat) : (s.slotWritten n).oc = s.oc := rfl
@[simp] theorem State.slotWritten_re (n : Nat) : (s.slotWritten n).re = s.re := rfl
@[simp] theorem State.slotWritten_dp (n : Nat) : (s.slotWritten n).dp = s.dp := rfl
@[simp] theorem State.slotWritten_eq (n : Nat) : (s.slotWritten n).eq = s.eq := rfl
@[simp] theorem State.slotWritten_link (n : Nat) : (s.slotWritten n).link = s.link := rfl
@[simp] theorem State.slotWritten_opts (n : Nat) : (s.slotWritten n).opts = s.opts := rfl
@[simp] theorem State.slotWritten_pending (n : Nat) : (s.slotWritten n).pending = s.pending := rfl

/-! ### slotFailed -/

@[simp] theorem State.slotFailed_resetLow (n : Nat) (f : MemFailure) : (s.slotFailed n f).resetLow = s.resetLow := rfl
@[simp] theorem State.slotFailed_up (n : Nat) (f : MemFailure) : (s.slotFailed n f).up = s.up := rfl
@[simp] theorem State.slotFailed_windows (n : Nat) (f : MemFailure) : (s.slotFailed n f).windows = s.windows := rfl
@[simp] theorem State.slotFailed_log (n : Nat) (f : MemFailure) : (s.slotFailed n f).log = s.log := rfl
@[simp] theorem State.slotFailed_lc (n : Nat) (f : MemFailure) :
    (s.slotFailed n f).lc = { s.lc.setReservation n (fun e => { e with state := .voiding, failure := some f }) with
      writes := s.lc.writes ++ [.voidHeader n] } := rfl
@[simp] theorem State.slotFailed_hq (n : Nat) (f : MemFailure) : (s.slotFailed n f).hq = s.hq := rfl
@[simp] theorem State.slotFailed_cf (n : Nat) (f : MemFailure) : (s.slotFailed n f).cf = s.cf := rfl
@[simp] theorem State.slotFailed_ce (n : Nat) (f : MemFailure) : (s.slotFailed n f).ce = s.ce := rfl
@[simp] theorem State.slotFailed_oc (n : Nat) (f : MemFailure) : (s.slotFailed n f).oc = s.oc := rfl
@[simp] theorem State.slotFailed_re (n : Nat) (f : MemFailure) : (s.slotFailed n f).re = s.re := rfl
@[simp] theorem State.slotFailed_dp (n : Nat) (f : MemFailure) : (s.slotFailed n f).dp = s.dp := rfl
@[simp] theorem State.slotFailed_eq (n : Nat) (f : MemFailure) : (s.slotFailed n f).eq = s.eq := rfl
@[simp] theorem State.slotFailed_link (n : Nat) (f : MemFailure) : (s.slotFailed n f).link = s.link := rfl
@[simp] theorem State.slotFailed_opts (n : Nat) (f : MemFailure) : (s.slotFailed n f).opts = s.opts := rfl
@[simp] theorem State.slotFailed_pending (n : Nat) (f : MemFailure) : (s.slotFailed n f).pending = s.pending := rfl

/-! ### setCapture -/

@[simp] theorem State.setCapture_resetLow (n : Nat) (c : CaptureState) :
    (s.setCapture n c).resetLow = s.resetLow := rfl
@[simp] theorem State.setCapture_up (n : Nat) (c : CaptureState) : (s.setCapture n c).up = s.up := rfl
@[simp] theorem State.setCapture_windows (n : Nat) (c : CaptureState) : (s.setCapture n c).windows = s.windows := rfl
@[simp] theorem State.setCapture_log (n : Nat) (c : CaptureState) : (s.setCapture n c).log = s.log := rfl
@[simp] theorem State.setCapture_lc (n : Nat) (c : CaptureState) : (s.setCapture n c).lc = s.lc := rfl
@[simp] theorem State.setCapture_hq (n : Nat) (c : CaptureState) :
    (s.setCapture n c).hq =
      { s.hq with entries := s.hq.entries.map fun e => if e.order = n then { e with capture := c } else e } := rfl
@[simp] theorem State.setCapture_cf (n : Nat) (c : CaptureState) : (s.setCapture n c).cf = s.cf := rfl
@[simp] theorem State.setCapture_ce (n : Nat) (c : CaptureState) : (s.setCapture n c).ce = s.ce := rfl
@[simp] theorem State.setCapture_oc (n : Nat) (c : CaptureState) : (s.setCapture n c).oc = s.oc := rfl
@[simp] theorem State.setCapture_re (n : Nat) (c : CaptureState) : (s.setCapture n c).re = s.re := rfl
@[simp] theorem State.setCapture_dp (n : Nat) (c : CaptureState) : (s.setCapture n c).dp = s.dp := rfl
@[simp] theorem State.setCapture_eq (n : Nat) (c : CaptureState) : (s.setCapture n c).eq = s.eq := rfl
@[simp] theorem State.setCapture_link (n : Nat) (c : CaptureState) : (s.setCapture n c).link = s.link := rfl
@[simp] theorem State.setCapture_opts (n : Nat) (c : CaptureState) : (s.setCapture n c).opts = s.opts := rfl
@[simp] theorem State.setCapture_pending (n : Nat) (c : CaptureState) : (s.setCapture n c).pending = s.pending := rfl

/-! ### insert -/

@[simp] theorem State.insert_resetLow (b : Addr) (k : Nat) : (s.insert b k).resetLow = s.resetLow := rfl
@[simp] theorem State.insert_up (b : Addr) (k : Nat) : (s.insert b k).up = s.up := rfl
@[simp] theorem State.insert_windows (b : Addr) (k : Nat) : (s.insert b k).windows = s.windows := rfl
@[simp] theorem State.insert_log (b : Addr) (k : Nat) : (s.insert b k).log = s.log := rfl
@[simp] theorem State.insert_lc (b : Addr) (k : Nat) : (s.insert b k).lc = s.lc := rfl
@[simp] theorem State.insert_hq (b : Addr) (k : Nat) : (s.insert b k).hq = s.hq := rfl
@[simp] theorem State.insert_cf (b : Addr) (k : Nat) : (s.insert b k).cf = filterInsert s.cf b k := rfl
@[simp] theorem State.insert_ce (b : Addr) (k : Nat) : (s.insert b k).ce = s.ce := rfl
@[simp] theorem State.insert_oc (b : Addr) (k : Nat) : (s.insert b k).oc = s.oc := rfl
@[simp] theorem State.insert_re (b : Addr) (k : Nat) : (s.insert b k).re = s.re := rfl
@[simp] theorem State.insert_dp (b : Addr) (k : Nat) : (s.insert b k).dp = s.dp := rfl
@[simp] theorem State.insert_eq (b : Addr) (k : Nat) : (s.insert b k).eq = s.eq := rfl
@[simp] theorem State.insert_link (b : Addr) (k : Nat) : (s.insert b k).link = s.link := rfl
@[simp] theorem State.insert_opts (b : Addr) (k : Nat) : (s.insert b k).opts = s.opts := rfl
@[simp] theorem State.insert_pending (b : Addr) (k : Nat) : (s.insert b k).pending = s.pending := rfl

/-! ### setContext -/

@[simp] theorem State.setContext_resetLow (i : Nat) (c : Context) : (s.setContext i c).resetLow = s.resetLow := rfl
@[simp] theorem State.setContext_up (i : Nat) (c : Context) : (s.setContext i c).up = s.up := rfl
@[simp] theorem State.setContext_windows (i : Nat) (c : Context) : (s.setContext i c).windows = s.windows := rfl
@[simp] theorem State.setContext_log (i : Nat) (c : Context) : (s.setContext i c).log = s.log := rfl
@[simp] theorem State.setContext_lc (i : Nat) (c : Context) : (s.setContext i c).lc = s.lc := rfl
@[simp] theorem State.setContext_hq (i : Nat) (c : Context) : (s.setContext i c).hq = s.hq := rfl
@[simp] theorem State.setContext_cf (i : Nat) (c : Context) : (s.setContext i c).cf = s.cf := rfl
@[simp] theorem State.setContext_ce (i : Nat) (c : Context) :
    (s.setContext i c).ce = { s.ce with contexts := s.ce.contexts.set i (some c) } := rfl
@[simp] theorem State.setContext_oc (i : Nat) (c : Context) : (s.setContext i c).oc = s.oc := rfl
@[simp] theorem State.setContext_re (i : Nat) (c : Context) : (s.setContext i c).re = s.re := rfl
@[simp] theorem State.setContext_dp (i : Nat) (c : Context) : (s.setContext i c).dp = s.dp := rfl
@[simp] theorem State.setContext_eq (i : Nat) (c : Context) : (s.setContext i c).eq = s.eq := rfl
@[simp] theorem State.setContext_link (i : Nat) (c : Context) : (s.setContext i c).link = s.link := rfl
@[simp] theorem State.setContext_opts (i : Nat) (c : Context) : (s.setContext i c).opts = s.opts := rfl
@[simp] theorem State.setContext_pending (i : Nat) (c : Context) : (s.setContext i c).pending = s.pending := rfl

/-! ### present -/

@[simp] theorem State.present_resetLow (o : Owner) (r : MemRequest) : (s.present o r).resetLow = s.resetLow := rfl
@[simp] theorem State.present_up (o : Owner) (r : MemRequest) : (s.present o r).up = s.up := rfl
@[simp] theorem State.present_windows (o : Owner) (r : MemRequest) : (s.present o r).windows = s.windows := rfl
@[simp] theorem State.present_log (o : Owner) (r : MemRequest) : (s.present o r).log = s.log := rfl
@[simp] theorem State.present_lc (o : Owner) (r : MemRequest) : (s.present o r).lc = s.lc := rfl
@[simp] theorem State.present_hq (o : Owner) (r : MemRequest) : (s.present o r).hq = s.hq := rfl
@[simp] theorem State.present_cf (o : Owner) (r : MemRequest) : (s.present o r).cf = s.cf := rfl
@[simp] theorem State.present_ce (o : Owner) (r : MemRequest) : (s.present o r).ce = s.ce := rfl
@[simp] theorem State.present_oc (o : Owner) (r : MemRequest) : (s.present o r).oc = s.oc := rfl
@[simp] theorem State.present_re (o : Owner) (r : MemRequest) : (s.present o r).re = s.re := rfl
@[simp] theorem State.present_dp (o : Owner) (r : MemRequest) :
    (s.present o r).dp =
      { s.dp with
        port := some { owner := o, request := r, failures := 0, limit := s.opts.retryLimit, last := none }
        calm := false } := rfl
@[simp] theorem State.present_eq (o : Owner) (r : MemRequest) : (s.present o r).eq = s.eq := rfl
@[simp] theorem State.present_link (o : Owner) (r : MemRequest) : (s.present o r).link = s.link := rfl
@[simp] theorem State.present_opts (o : Owner) (r : MemRequest) : (s.present o r).opts = s.opts := rfl
@[simp] theorem State.present_pending (o : Owner) (r : MemRequest) : (s.present o r).pending = s.pending := rfl

/-! ### slotDurable -/

@[simp] theorem State.slotDurable_resetLow (n : Nat) : (s.slotDurable n).resetLow = s.resetLow := rfl
@[simp] theorem State.slotDurable_up (n : Nat) : (s.slotDurable n).up = s.up := rfl
@[simp] theorem State.slotDurable_windows (n : Nat) : (s.slotDurable n).windows = s.windows := rfl
@[simp] theorem State.slotDurable_log (n : Nat) : (s.slotDurable n).log = s.log := rfl
@[simp] theorem State.slotDurable_lc (n : Nat) : (s.slotDurable n).lc = s.lc := rfl
@[simp] theorem State.slotDurable_hq (n : Nat) :
    (s.slotDurable n).hq =
      { s.hq with
        entries := s.hq.entries.map fun e => if e.capture = .depends n then { e with capture := .free } else e } := rfl
@[simp] theorem State.slotDurable_cf (n : Nat) : (s.slotDurable n).cf = s.cf := rfl
@[simp] theorem State.slotDurable_ce (n : Nat) :
    (s.slotDurable n).ce =
      { s.ce with
        contexts := s.ce.contexts.map fun c =>
          match c with
          | some x => if x.slot = n then none else some x
          | none => none } := rfl
@[simp] theorem State.slotDurable_oc (n : Nat) : (s.slotDurable n).oc = s.oc := rfl
@[simp] theorem State.slotDurable_re (n : Nat) : (s.slotDurable n).re = s.re := rfl
@[simp] theorem State.slotDurable_dp (n : Nat) : (s.slotDurable n).dp = s.dp := rfl
@[simp] theorem State.slotDurable_eq (n : Nat) : (s.slotDurable n).eq = s.eq := rfl
@[simp] theorem State.slotDurable_link (n : Nat) : (s.slotDurable n).link = s.link := rfl
@[simp] theorem State.slotDurable_opts (n : Nat) : (s.slotDurable n).opts = s.opts := rfl
@[simp] theorem State.slotDurable_pending (n : Nat) : (s.slotDurable n).pending = s.pending := rfl

/-! ### setBar -/

@[simp] theorem State.setBar_resetLow : (s.setBar).resetLow = s.resetLow := rfl
@[simp] theorem State.setBar_up : (s.setBar).up = s.up := rfl
@[simp] theorem State.setBar_windows : (s.setBar).windows = s.windows := rfl
@[simp] theorem State.setBar_log : (s.setBar).log = s.log := rfl
@[simp] theorem State.setBar_lc : (s.setBar).lc = s.lc := rfl
@[simp] theorem State.setBar_hq : (s.setBar).hq = s.hq := rfl
@[simp] theorem State.setBar_cf : (s.setBar).cf = s.cf := rfl
@[simp] theorem State.setBar_ce : (s.setBar).ce = s.ce := rfl
@[simp] theorem State.setBar_oc : (s.setBar).oc = { s.oc with bar := some (s.oc.serialAt 1) } := rfl
@[simp] theorem State.setBar_re : (s.setBar).re = s.re := rfl
@[simp] theorem State.setBar_dp : (s.setBar).dp = s.dp := rfl
@[simp] theorem State.setBar_eq : (s.setBar).eq = s.eq := rfl
@[simp] theorem State.setBar_link : (s.setBar).link = s.link := rfl
@[simp] theorem State.setBar_opts : (s.setBar).opts = s.opts := rfl
@[simp] theorem State.setBar_pending : (s.setBar).pending = s.pending := rfl

/-! ### setSuccessorMarker -/

@[simp] theorem State.setSuccessorMarker_resetLow (n : Nat) : (s.setSuccessorMarker n).resetLow = s.resetLow := rfl
@[simp] theorem State.setSuccessorMarker_up (n : Nat) : (s.setSuccessorMarker n).up = s.up := rfl
@[simp] theorem State.setSuccessorMarker_windows (n : Nat) : (s.setSuccessorMarker n).windows = s.windows := rfl
@[simp] theorem State.setSuccessorMarker_log (n : Nat) : (s.setSuccessorMarker n).log = s.log := rfl
@[simp] theorem State.setSuccessorMarker_lc (n : Nat) : (s.setSuccessorMarker n).lc = s.lc := rfl
@[simp] theorem State.setSuccessorMarker_hq (n : Nat) : (s.setSuccessorMarker n).hq = s.hq := rfl
@[simp] theorem State.setSuccessorMarker_cf (n : Nat) : (s.setSuccessorMarker n).cf = s.cf := rfl
@[simp] theorem State.setSuccessorMarker_ce (n : Nat) : (s.setSuccessorMarker n).ce = s.ce := rfl
@[simp] theorem State.setSuccessorMarker_oc (n : Nat) :
    (s.setSuccessorMarker n).oc =
      { s.oc with successor := s.oc.successor.map fun x => { x with marker := some n } } := rfl
@[simp] theorem State.setSuccessorMarker_re (n : Nat) : (s.setSuccessorMarker n).re = s.re := rfl
@[simp] theorem State.setSuccessorMarker_dp (n : Nat) : (s.setSuccessorMarker n).dp = s.dp := rfl
@[simp] theorem State.setSuccessorMarker_eq (n : Nat) : (s.setSuccessorMarker n).eq = s.eq := rfl
@[simp] theorem State.setSuccessorMarker_link (n : Nat) : (s.setSuccessorMarker n).link = s.link := rfl
@[simp] theorem State.setSuccessorMarker_opts (n : Nat) : (s.setSuccessorMarker n).opts = s.opts := rfl
@[simp] theorem State.setSuccessorMarker_pending (n : Nat) : (s.setSuccessorMarker n).pending = s.pending := rfl

/-! ### setAttachPhase -/

@[simp] theorem State.setAttachPhase_resetLow (p : AttachPhase) : (s.setAttachPhase p).resetLow = s.resetLow := rfl
@[simp] theorem State.setAttachPhase_up (p : AttachPhase) : (s.setAttachPhase p).up = s.up := rfl
@[simp] theorem State.setAttachPhase_windows (p : AttachPhase) : (s.setAttachPhase p).windows = s.windows := rfl
@[simp] theorem State.setAttachPhase_log (p : AttachPhase) : (s.setAttachPhase p).log = s.log := rfl
@[simp] theorem State.setAttachPhase_lc (p : AttachPhase) : (s.setAttachPhase p).lc = s.lc := rfl
@[simp] theorem State.setAttachPhase_hq (p : AttachPhase) : (s.setAttachPhase p).hq = s.hq := rfl
@[simp] theorem State.setAttachPhase_cf (p : AttachPhase) : (s.setAttachPhase p).cf = s.cf := rfl
@[simp] theorem State.setAttachPhase_ce (p : AttachPhase) : (s.setAttachPhase p).ce = s.ce := rfl
@[simp] theorem State.setAttachPhase_oc (p : AttachPhase) :
    (s.setAttachPhase p).oc = { s.oc with attach := s.oc.attach.map fun a => { a with phase := p } } := rfl
@[simp] theorem State.setAttachPhase_re (p : AttachPhase) : (s.setAttachPhase p).re = s.re := rfl
@[simp] theorem State.setAttachPhase_dp (p : AttachPhase) : (s.setAttachPhase p).dp = s.dp := rfl
@[simp] theorem State.setAttachPhase_eq (p : AttachPhase) : (s.setAttachPhase p).eq = s.eq := rfl
@[simp] theorem State.setAttachPhase_link (p : AttachPhase) : (s.setAttachPhase p).link = s.link := rfl
@[simp] theorem State.setAttachPhase_opts (p : AttachPhase) : (s.setAttachPhase p).opts = s.opts := rfl
@[simp] theorem State.setAttachPhase_pending (p : AttachPhase) : (s.setAttachPhase p).pending = s.pending := rfl

/-! ### setWindow -/

@[simp] theorem State.setWindow_resetLow (i : Nat) (w : Window) : (s.setWindow i w).resetLow = s.resetLow := rfl
@[simp] theorem State.setWindow_up (i : Nat) (w : Window) : (s.setWindow i w).up = s.up := rfl
@[simp] theorem State.setWindow_windows (i : Nat) (w : Window) : (s.setWindow i w).windows = s.windows.set i w := rfl
@[simp] theorem State.setWindow_log (i : Nat) (w : Window) : (s.setWindow i w).log = s.log := rfl
@[simp] theorem State.setWindow_lc (i : Nat) (w : Window) : (s.setWindow i w).lc = s.lc := rfl
@[simp] theorem State.setWindow_hq (i : Nat) (w : Window) : (s.setWindow i w).hq = s.hq := rfl
@[simp] theorem State.setWindow_cf (i : Nat) (w : Window) : (s.setWindow i w).cf = s.cf := rfl
@[simp] theorem State.setWindow_ce (i : Nat) (w : Window) : (s.setWindow i w).ce = s.ce := rfl
@[simp] theorem State.setWindow_oc (i : Nat) (w : Window) : (s.setWindow i w).oc = s.oc := rfl
@[simp] theorem State.setWindow_re (i : Nat) (w : Window) : (s.setWindow i w).re = s.re := rfl
@[simp] theorem State.setWindow_dp (i : Nat) (w : Window) : (s.setWindow i w).dp = s.dp := rfl
@[simp] theorem State.setWindow_eq (i : Nat) (w : Window) : (s.setWindow i w).eq = s.eq := rfl
@[simp] theorem State.setWindow_link (i : Nat) (w : Window) : (s.setWindow i w).link = s.link := rfl
@[simp] theorem State.setWindow_opts (i : Nat) (w : Window) : (s.setWindow i w).opts = s.opts := rfl
@[simp] theorem State.setWindow_pending (i : Nat) (w : Window) : (s.setWindow i w).pending = s.pending := rfl

/-! ### setResult -/

@[simp] theorem State.setResult_resetLow (c : ResultCode) (d : List Byte) :
    (s.setResult c d).resetLow = s.resetLow := rfl
@[simp] theorem State.setResult_up (c : ResultCode) (d : List Byte) : (s.setResult c d).up = s.up := rfl
@[simp] theorem State.setResult_windows (c : ResultCode) (d : List Byte) :
    (s.setResult c d).windows = s.windows := rfl
@[simp] theorem State.setResult_log (c : ResultCode) (d : List Byte) : (s.setResult c d).log = s.log := rfl
@[simp] theorem State.setResult_lc (c : ResultCode) (d : List Byte) : (s.setResult c d).lc = s.lc := rfl
@[simp] theorem State.setResult_hq (c : ResultCode) (d : List Byte) : (s.setResult c d).hq = s.hq := rfl
@[simp] theorem State.setResult_cf (c : ResultCode) (d : List Byte) : (s.setResult c d).cf = s.cf := rfl
@[simp] theorem State.setResult_ce (c : ResultCode) (d : List Byte) : (s.setResult c d).ce = s.ce := rfl
@[simp] theorem State.setResult_oc (c : ResultCode) (d : List Byte) : (s.setResult c d).oc = s.oc := rfl
@[simp] theorem State.setResult_re (c : ResultCode) (d : List Byte) : (s.setResult c d).re = s.re := rfl
@[simp] theorem State.setResult_dp (c : ResultCode) (d : List Byte) : (s.setResult c d).dp = s.dp := rfl
@[simp] theorem State.setResult_eq (c : ResultCode) (d : List Byte) : (s.setResult c d).eq = s.eq := rfl
@[simp] theorem State.setResult_link (c : ResultCode) (d : List Byte) :
    (s.setResult c d).link = { s.link with result := { code := c, data := d }, frame := none, csLow := false } := rfl
@[simp] theorem State.setResult_opts (c : ResultCode) (d : List Byte) : (s.setResult c d).opts = s.opts := rfl
@[simp] theorem State.setResult_pending (c : ResultCode) (d : List Byte) :
    (s.setResult c d).pending = s.pending := rfl

/-! ### riseUnframed -/

@[simp] theorem State.riseUnframed_resetLow : (s.riseUnframed).resetLow = s.resetLow := rfl
@[simp] theorem State.riseUnframed_up : (s.riseUnframed).up = s.up := rfl
@[simp] theorem State.riseUnframed_windows : (s.riseUnframed).windows = s.windows := rfl
@[simp] theorem State.riseUnframed_log : (s.riseUnframed).log = s.log := rfl
@[simp] theorem State.riseUnframed_lc : (s.riseUnframed).lc = s.lc := rfl
@[simp] theorem State.riseUnframed_hq : (s.riseUnframed).hq = s.hq := rfl
@[simp] theorem State.riseUnframed_cf : (s.riseUnframed).cf = s.cf := rfl
@[simp] theorem State.riseUnframed_ce : (s.riseUnframed).ce = s.ce := rfl
@[simp] theorem State.riseUnframed_oc : (s.riseUnframed).oc = s.oc := rfl
@[simp] theorem State.riseUnframed_re : (s.riseUnframed).re = s.re := rfl
@[simp] theorem State.riseUnframed_dp : (s.riseUnframed).dp = s.dp := rfl
@[simp] theorem State.riseUnframed_eq : (s.riseUnframed).eq = s.eq := rfl
@[simp] theorem State.riseUnframed_link : (s.riseUnframed).link = s.link.riseUnframed := rfl
@[simp] theorem State.riseUnframed_opts : (s.riseUnframed).opts = s.opts := rfl
@[simp] theorem State.riseUnframed_pending : (s.riseUnframed).pending = s.pending := rfl

/-! ### copyFailed -/

@[simp] theorem State.copyFailed_resetLow (n : CopyName) : (s.copyFailed n).resetLow = s.resetLow := rfl
@[simp] theorem State.copyFailed_up (n : CopyName) : (s.copyFailed n).up = s.up := rfl
@[simp] theorem State.copyFailed_windows (n : CopyName) : (s.copyFailed n).windows = s.windows := rfl
@[simp] theorem State.copyFailed_log (n : CopyName) : (s.copyFailed n).log = s.log := rfl
@[simp] theorem State.copyFailed_lc (n : CopyName) :
    (s.copyFailed n).lc = s.lc.setCopy n { s.lc.copyState n with standing := .invalid } := rfl
@[simp] theorem State.copyFailed_hq (n : CopyName) : (s.copyFailed n).hq = s.hq := rfl
@[simp] theorem State.copyFailed_cf (n : CopyName) : (s.copyFailed n).cf = s.cf := rfl
@[simp] theorem State.copyFailed_ce (n : CopyName) : (s.copyFailed n).ce = s.ce := rfl
@[simp] theorem State.copyFailed_oc (n : CopyName) : (s.copyFailed n).oc = s.oc := rfl
@[simp] theorem State.copyFailed_re (n : CopyName) : (s.copyFailed n).re = s.re := rfl
@[simp] theorem State.copyFailed_dp (n : CopyName) : (s.copyFailed n).dp = s.dp := rfl
@[simp] theorem State.copyFailed_eq (n : CopyName) : (s.copyFailed n).eq = s.eq := rfl
@[simp] theorem State.copyFailed_link (n : CopyName) : (s.copyFailed n).link = s.link := rfl
@[simp] theorem State.copyFailed_opts (n : CopyName) : (s.copyFailed n).opts = s.opts := rfl
@[simp] theorem State.copyFailed_pending (n : CopyName) : (s.copyFailed n).pending = s.pending := rfl

/-! ### releaseWaits -/

@[simp] theorem State.releaseWaits_resetLow : (s.releaseWaits).resetLow = s.resetLow := rfl
@[simp] theorem State.releaseWaits_up : (s.releaseWaits).up = s.up := rfl
@[simp] theorem State.releaseWaits_windows : (s.releaseWaits).windows = s.windows := rfl
@[simp] theorem State.releaseWaits_log : (s.releaseWaits).log = s.log := rfl
@[simp] theorem State.releaseWaits_lc : (s.releaseWaits).lc = s.lc := rfl
@[simp] theorem State.releaseWaits_hq : (s.releaseWaits).hq = s.hq := rfl
@[simp] theorem State.releaseWaits_cf : (s.releaseWaits).cf = s.cf := rfl
@[simp] theorem State.releaseWaits_ce :
    (s.releaseWaits).ce = { s.ce with contexts := s.ce.contexts.map fun c => c.map (·.release s.hq.entries) } := rfl
@[simp] theorem State.releaseWaits_oc : (s.releaseWaits).oc = s.oc := rfl
@[simp] theorem State.releaseWaits_re : (s.releaseWaits).re = s.re := rfl
@[simp] theorem State.releaseWaits_dp : (s.releaseWaits).dp = s.dp := rfl
@[simp] theorem State.releaseWaits_eq : (s.releaseWaits).eq = s.eq := rfl
@[simp] theorem State.releaseWaits_link : (s.releaseWaits).link = s.link := rfl
@[simp] theorem State.releaseWaits_opts : (s.releaseWaits).opts = s.opts := rfl
@[simp] theorem State.releaseWaits_pending : (s.releaseWaits).pending = s.pending := rfl

/-! ### withdraw -/

@[simp] theorem State.withdraw_resetLow : (s.withdraw).resetLow = s.resetLow := rfl
@[simp] theorem State.withdraw_up : (s.withdraw).up = s.up := rfl
@[simp] theorem State.withdraw_windows : (s.withdraw).windows = s.windows := rfl
@[simp] theorem State.withdraw_log : (s.withdraw).log = s.log := rfl
@[simp] theorem State.withdraw_lc : (s.withdraw).lc = s.lc := rfl
@[simp] theorem State.withdraw_hq : (s.withdraw).hq = s.hq := rfl
@[simp] theorem State.withdraw_cf : (s.withdraw).cf = s.cf := rfl
@[simp] theorem State.withdraw_ce : (s.withdraw).ce = s.ce := rfl
@[simp] theorem State.withdraw_oc : (s.withdraw).oc = s.oc := rfl
@[simp] theorem State.withdraw_re : (s.withdraw).re = s.re := rfl
@[simp] theorem State.withdraw_dp :
    (s.withdraw).dp = { s.dp with
      fairness := if s.masterStands then s.dp.fairness else 0
      calm := s.dp.calm || (s.dp.port.isNone && !s.someStands) } := rfl
@[simp] theorem State.withdraw_eq : (s.withdraw).eq = s.eq := rfl
@[simp] theorem State.withdraw_link : (s.withdraw).link = s.link := rfl
@[simp] theorem State.withdraw_opts : (s.withdraw).opts = s.opts := rfl
@[simp] theorem State.withdraw_pending : (s.withdraw).pending = s.pending := rfl

/-! ### anchored -/

@[simp] theorem State.anchored_resetLow (j : AnchorJob) : (s.anchored j).resetLow = s.resetLow := rfl
@[simp] theorem State.anchored_up (j : AnchorJob) : (s.anchored j).up = s.up := rfl
@[simp] theorem State.anchored_windows (j : AnchorJob) : (s.anchored j).windows = s.windows := rfl
@[simp] theorem State.anchored_log (j : AnchorJob) : (s.anchored j).log = s.log := rfl
@[simp] theorem State.anchored_hq (j : AnchorJob) : (s.anchored j).hq = s.hq := rfl
@[simp] theorem State.anchored_cf (j : AnchorJob) : (s.anchored j).cf = s.cf := rfl
@[simp] theorem State.anchored_oc (j : AnchorJob) : (s.anchored j).oc = s.oc := rfl
@[simp] theorem State.anchored_re (j : AnchorJob) : (s.anchored j).re = s.re := rfl
@[simp] theorem State.anchored_dp (j : AnchorJob) : (s.anchored j).dp = s.dp := rfl
@[simp] theorem State.anchored_eq (j : AnchorJob) : (s.anchored j).eq = s.eq := rfl
@[simp] theorem State.anchored_link (j : AnchorJob) : (s.anchored j).link = s.link := rfl
@[simp] theorem State.anchored_opts (j : AnchorJob) : (s.anchored j).opts = s.opts := rfl
@[simp] theorem State.anchored_pending (j : AnchorJob) : (s.anchored j).pending = s.pending := rfl

/-! ### popInnermost -/

@[simp] theorem State.popInnermost_resetLow : (s.popInnermost).resetLow = s.resetLow := rfl
@[simp] theorem State.popInnermost_up : (s.popInnermost).up = s.up := rfl
@[simp] theorem State.popInnermost_windows : (s.popInnermost).windows = s.windows := rfl
@[simp] theorem State.popInnermost_log : (s.popInnermost).log = s.log := rfl
@[simp] theorem State.popInnermost_lc : (s.popInnermost).lc = s.lc := rfl
@[simp] theorem State.popInnermost_hq : (s.popInnermost).hq = s.hq := rfl
@[simp] theorem State.popInnermost_cf : (s.popInnermost).cf = s.cf := rfl
@[simp] theorem State.popInnermost_ce : (s.popInnermost).ce = s.ce := rfl
@[simp] theorem State.popInnermost_oc :
    (s.popInnermost).oc =
      { s.oc with stack := s.oc.stack.dropLast, stamp := { s.oc with stack := s.oc.stack.dropLast }.innermost } := rfl
@[simp] theorem State.popInnermost_re : (s.popInnermost).re = s.re := rfl
@[simp] theorem State.popInnermost_dp : (s.popInnermost).dp = s.dp := rfl
@[simp] theorem State.popInnermost_eq : (s.popInnermost).eq = s.eq := rfl
@[simp] theorem State.popInnermost_link : (s.popInnermost).link = s.link := rfl
@[simp] theorem State.popInnermost_opts : (s.popInnermost).opts = s.opts := rfl
@[simp] theorem State.popInnermost_pending : (s.popInnermost).pending = s.pending := rfl

/-! ### dropFault -/

@[simp] theorem State.dropFault_resetLow (r : Word32) : (s.dropFault r).resetLow = s.resetLow := rfl
@[simp] theorem State.dropFault_up (r : Word32) : (s.dropFault r).up = s.up := rfl
@[simp] theorem State.dropFault_windows (r : Word32) : (s.dropFault r).windows = s.windows := rfl
@[simp] theorem State.dropFault_log (r : Word32) : (s.dropFault r).log = s.log := rfl
@[simp] theorem State.dropFault_lc (r : Word32) : (s.dropFault r).lc = s.lc := rfl
@[simp] theorem State.dropFault_hq (r : Word32) : (s.dropFault r).hq = s.hq := rfl
@[simp] theorem State.dropFault_cf (r : Word32) : (s.dropFault r).cf = s.cf := rfl
@[simp] theorem State.dropFault_ce (r : Word32) : (s.dropFault r).ce = s.ce := rfl
@[simp] theorem State.dropFault_oc (r : Word32) : (s.dropFault r).oc = s.oc := rfl
@[simp] theorem State.dropFault_re (r : Word32) : (s.dropFault r).re = s.re := rfl
@[simp] theorem State.dropFault_dp (r : Word32) : (s.dropFault r).dp = s.dp := rfl
@[simp] theorem State.dropFault_eq (r : Word32) :
    (s.dropFault r).eq = s.eq.push
      { kind := .faultDropped, level := BitVec.ofNat 8 s.oc.depth, condition := .none, serial := s.oc.innermost,
        argument := r } := rfl
@[simp] theorem State.dropFault_link (r : Word32) : (s.dropFault r).link = s.link := rfl
@[simp] theorem State.dropFault_opts (r : Word32) : (s.dropFault r).opts = s.opts := rfl
@[simp] theorem State.dropFault_pending (r : Word32) : (s.dropFault r).pending = s.pending := rfl

/-! ### raiseFaultTaken -/

@[simp] theorem State.raiseFaultTaken_resetLow (j : Nat) (w : Word32) (n : Nat) :
    (s.raiseFaultTaken j w n).resetLow = s.resetLow := rfl
@[simp] theorem State.raiseFaultTaken_up (j : Nat) (w : Word32) (n : Nat) : (s.raiseFaultTaken j w n).up = s.up := rfl
@[simp] theorem State.raiseFaultTaken_windows (j : Nat) (w : Word32) (n : Nat) :
    (s.raiseFaultTaken j w n).windows = s.windows := rfl
@[simp] theorem State.raiseFaultTaken_log (j : Nat) (w : Word32) (n : Nat) :
    (s.raiseFaultTaken j w n).log = s.log := rfl
@[simp] theorem State.raiseFaultTaken_lc (j : Nat) (w : Word32) (n : Nat) : (s.raiseFaultTaken j w n).lc = s.lc := rfl
@[simp] theorem State.raiseFaultTaken_hq (j : Nat) (w : Word32) (n : Nat) : (s.raiseFaultTaken j w n).hq = s.hq := rfl
@[simp] theorem State.raiseFaultTaken_cf (j : Nat) (w : Word32) (n : Nat) : (s.raiseFaultTaken j w n).cf = s.cf := rfl
@[simp] theorem State.raiseFaultTaken_ce (j : Nat) (w : Word32) (n : Nat) : (s.raiseFaultTaken j w n).ce = s.ce := rfl
@[simp] theorem State.raiseFaultTaken_oc (j : Nat) (w : Word32) (n : Nat) : (s.raiseFaultTaken j w n).oc = s.oc := rfl
@[simp] theorem State.raiseFaultTaken_re (j : Nat) (w : Word32) (n : Nat) : (s.raiseFaultTaken j w n).re = s.re := rfl
@[simp] theorem State.raiseFaultTaken_dp (j : Nat) (w : Word32) (n : Nat) : (s.raiseFaultTaken j w n).dp = s.dp := rfl
@[simp] theorem State.raiseFaultTaken_eq (j : Nat) (w : Word32) (n : Nat) :
    (s.raiseFaultTaken j w n).eq = s.eq.push
      { kind := .faultTaken, level := BitVec.ofNat 8 j, condition := .none, serial := w,
        argument := BitVec.ofNat 32 n } := rfl
@[simp] theorem State.raiseFaultTaken_link (j : Nat) (w : Word32) (n : Nat) :
    (s.raiseFaultTaken j w n).link = s.link := rfl
@[simp] theorem State.raiseFaultTaken_opts (j : Nat) (w : Word32) (n : Nat) :
    (s.raiseFaultTaken j w n).opts = s.opts := rfl
@[simp] theorem State.raiseFaultTaken_pending (j : Nat) (w : Word32) (n : Nat) :
    (s.raiseFaultTaken j w n).pending = s.pending := rfl

/-! ### raiseDiscarded -/

@[simp] theorem State.raiseDiscarded_resetLow : (s.raiseDiscarded).resetLow = s.resetLow := rfl
@[simp] theorem State.raiseDiscarded_up : (s.raiseDiscarded).up = s.up := rfl
@[simp] theorem State.raiseDiscarded_windows : (s.raiseDiscarded).windows = s.windows := rfl
@[simp] theorem State.raiseDiscarded_log : (s.raiseDiscarded).log = s.log := rfl
@[simp] theorem State.raiseDiscarded_lc : (s.raiseDiscarded).lc = s.lc := rfl
@[simp] theorem State.raiseDiscarded_hq : (s.raiseDiscarded).hq = s.hq := rfl
@[simp] theorem State.raiseDiscarded_cf : (s.raiseDiscarded).cf = s.cf := rfl
@[simp] theorem State.raiseDiscarded_ce : (s.raiseDiscarded).ce = s.ce := rfl
@[simp] theorem State.raiseDiscarded_oc : (s.raiseDiscarded).oc = s.oc := rfl
@[simp] theorem State.raiseDiscarded_re : (s.raiseDiscarded).re = s.re := rfl
@[simp] theorem State.raiseDiscarded_dp : (s.raiseDiscarded).dp = s.dp := rfl
@[simp] theorem State.raiseDiscarded_eq :
    (s.raiseDiscarded).eq = s.eq.push
      { kind := .discarded
        level := BitVec.ofNat 8 s.re.target
        condition := s.re.haltCondition
        serial := s.re.targetSerial
        argument := BitVec.ofNat 32 s.re.popped } := rfl
@[simp] theorem State.raiseDiscarded_link : (s.raiseDiscarded).link = s.link := rfl
@[simp] theorem State.raiseDiscarded_opts : (s.raiseDiscarded).opts = s.opts := rfl
@[simp] theorem State.raiseDiscarded_pending : (s.raiseDiscarded).pending = s.pending := rfl

end Sys2Proof.Machine
end

