-- ==== Sys2Proof/Laws/Forms.lean ====
section
/-! SUPPORT. What the shared operations can do, once each: the three forms of a meaning, answering, holding, discarding
and deciding, and what follows at once from a step. Provers cite these and unfold nothing. -/

namespace Sys2Proof.Machine

/-! ## The three forms of a meaning -/

theorem claim_low {f : State → Option State} {s : State} (h : s.resetLow = true) : claim f s = .next s := by
  simp [claim, h]

theorem claim_none {f : State → Option State} {s : State} (h : f s = none) : claim f s = .next s := by
  unfold claim; split <;> simp_all

theorem claim_some {f : State → Option State} {s t : State} (hr : s.resetLow = false) (h : f s = some t) :
    claim f s = .next (finish s t) := by
  simp [claim, hr, h]

/-- Everything a claim can do: nothing, or the step `f` gives and what follows at once. -/
theorem claim_cases (f : State → Option State) (s : State) :
    claim f s = .next s ∨ ∃ t, s.resetLow = false ∧ f s = some t ∧ claim f s = .next (finish s t) := by
  unfold claim
  split
  · exact .inl rfl
  · split
    · exact .inl rfl
    · exact .inr ⟨_, by simp_all, by assumption, rfl⟩

theorem command_low {f : State → Reply} {s : State} (h : s.resetLow = true) : command f s = .next s.riseUnframed := by
  simp [command, h]

theorem command_unframed {f : State → Reply} {s : State} (h : s.link.frame = none) :
    command f s = .next s.riseUnframed := by
  simp [command, h]

theorem command_refuse {f : State → Reply} {s : State} {code : ResultCode} (h : s.linked) (hf : f s = .refuse code) :
    command f s = .next (s.setResult code []) := by
  simp [command, h.1, h.2, hf]

theorem command_done {f : State → Reply} {s t : State} {code : ResultCode} {data : List Byte} (h : s.linked)
    (hf : f s = .done code data t) : command f s = .next ((finish s t).setResult code data) := by
  simp [command, h.1, h.2, hf]

/-- Everything a link command can do: a rise of CS that ends no frame, a result alone, or its owner's step with a
result. -/
theorem command_cases (f : State → Reply) (s : State) :
    command f s = .next s.riseUnframed ∨ (∃ code, f s = .refuse code ∧ command f s = .next (s.setResult code []))
      ∨ ∃ code data t, f s = .done code data t ∧ command f s = .next ((finish s t).setResult code data) := by
  unfold command
  split
  · exact .inl rfl
  · split
    · exact .inr (.inl ⟨_, by assumption, rfl⟩)
    · exact .inr (.inr ⟨_, _, _, by assumption, rfl⟩)

theorem query_low {f : State → Reply} {s : State} (h : s.resetLow = true) : query f s = .next s.riseUnframed := by
  simp [query, h]

theorem query_unframed {f : State → Reply} {s : State} (h : s.link.frame = none) : query f s = .next s.riseUnframed := by
  simp [query, h]

theorem query_refuse {f : State → Reply} {s : State} {code : ResultCode} (h : s.linked) (hf : f s = .refuse code) :
    query f s = .next (s.setResult code []) := by
  simp [query, h.1, h.2, hf]

theorem query_done {f : State → Reply} {s t : State} {code : ResultCode} {data : List Byte} (h : s.linked)
    (hf : f s = .done code data t) : query f s = .next (t.setResult code data) := by
  simp [query, h.1, h.2, hf]

/-- Everything a query can do. -/
theorem query_cases (f : State → Reply) (s : State) :
    query f s = .next s.riseUnframed ∨ (∃ code, f s = .refuse code ∧ query f s = .next (s.setResult code []))
      ∨ ∃ code data t, f s = .done code data t ∧ query f s = .next (t.setResult code data) := by
  unfold query
  split
  · exact .inl rfl
  · split
    · exact .inr (.inl ⟨_, by assumption, rfl⟩)
    · exact .inr (.inr ⟨_, _, _, by assumption, rfl⟩)

/-! ## Checks made in order -/

/-- No check fails exactly when all pass. -/
theorem firstFailure_eq_none {l : List (Bool × ResultCode)} : firstFailure l = none ↔ ∀ p ∈ l, p.1 = true := by
  induction l with
  | nil => simp [firstFailure]
  | cons p rest ih =>
    obtain ⟨ok, code⟩ := p
    cases ok <;> simp [firstFailure, ih]

/-- The code of a failure is that of a check that fails. -/
theorem firstFailure_mem {l : List (Bool × ResultCode)} {code : ResultCode} (h : firstFailure l = some code) :
    (false, code) ∈ l := by
  induction l with
  | nil => simp [firstFailure] at h
  | cons p rest ih =>
    obtain ⟨ok, c⟩ := p
    cases ok
    · simp [firstFailure] at h; simp [h]
    · simp [firstFailure] at h; exact List.mem_cons_of_mem _ (ih h)

/-- Where all checks carry one code, that code answers any failure. -/
theorem firstFailure_const {l : List (Bool × ResultCode)} {code : ResultCode} (hc : ∀ p ∈ l, p.2 = code)
    (hf : ¬∀ p ∈ l, p.1 = true) : firstFailure l = some code := by
  rw [← firstFailure_eq_none] at hf
  obtain ⟨c, h⟩ := Option.ne_none_iff_exists'.mp hf
  exact h.trans (congrArg some (hc _ (firstFailure_mem h)))

/-- Windows and a range apart, as a statement on every other valid window. -/
theorem State.apartFromWindows_iff (s : State) (index : Option Nat) (lo hi : Nat) :
    s.apartFromWindows index lo hi = true ↔
      ∀ j w, s.windows[j]? = some w → w.valid = true → index ≠ some j → hi ≤ w.base.toNat ∨ w.limit.toNat ≤ lo := by
  unfold State.apartFromWindows rangesApart
  rw [List.all_eq_true]
  constructor
  · intro h j w hw hv hj
    have := h (w, j) (by rw [List.mem_zipIdx_iff_getElem?]; exact hw)
    simpa [hv, hj] using this
  · rintro h ⟨w, j⟩ hp
    rw [List.mem_zipIdx_iff_getElem?] at hp
    have := h j w hp
    by_cases hv : w.valid = true <;> by_cases hj : index = some j <;> simp_all

/-- The general checks of SETOPT passed: the owner's checks decide. -/
theorem State.setOption_open {s : State} {checks : List (Bool × ResultCode)} {t : State}
    (h : s.oc.mode = .offline ∨ (s.oc.mode = .online ∧ s.oc.op = .idle ∧ s.oc.stack = [])) :
    s.setOption checks t =
      match firstFailure checks with
      | some code => .refuse code
      | none => .done .ok [] t := by
  rcases h with h | ⟨h1, h2, h3⟩ <;>
    simp [State.setOption, State.optionChecks, firstFailure, Controller.depth, *] <;> cases firstFailure checks <;> rfl

/-- The four bytes of an argument spell it. -/
theorem argument32_bytes (w : Word32) :
    argument32 (w.extractLsb' 24 8) (w.extractLsb' 16 8) (w.extractLsb' 8 8) (w.extractLsb' 0 8) = w := by
  unfold argument32
  rw [BitVec.extractLsb'_append_extractLsb'_eq_extractLsb' (by rfl),
    BitVec.extractLsb'_append_extractLsb'_eq_extractLsb' (by rfl),
    BitVec.extractLsb'_append_extractLsb'_eq_extractLsb' (by rfl)]
  exact BitVec.extractLsb'_eq_self

/-! ## Frames of parts -/

theorem OnlyChanges.refl (ps : List Part) (s : State) : OnlyChanges ps s s := by
  intro p _; cases p <;> rfl

theorem OnlyChanges.mono {ps qs : List Part} {s t : State} (h : OnlyChanges ps s t) (hs : ∀ p ∈ ps, p ∈ qs) :
    OnlyChanges qs s t := fun p hp => h p fun hq => hp (hs p hq)

theorem OnlyChanges.trans {ps : List Part} {s t u : State} (h : OnlyChanges ps s t) (h' : OnlyChanges ps t u) :
    OnlyChanges ps s u := by
  intro p hp
  have a := h p hp
  have b := h' p hp
  cases p <;> exact b.trans a

/-! ## Requests as they are presented -/

/-- The block of an address, as a number (R1). -/
theorem blockOf_toNat (a : Addr) : (blockOf a).toNat = a.toNat / 64 * 64 := by
  have h : blockOf a = (a >>> 6) <<< 6 := by
    unfold blockOf
    ext i hi
    have hc : (0xFFFFFFC0#32)[i] = decide (6 ≤ i) := by
      have : ∀ j : Fin 32, (0xFFFFFFC0#32)[j.val]'j.isLt = decide (6 ≤ j.val) := by decide
      exact this ⟨i, hi⟩
    rw [BitVec.getElem_and, hc, BitVec.getElem_shiftLeft]
    by_cases h6 : i < 6
    · simp [h6, Nat.not_le.mpr h6]
    · have h6' : 6 ≤ i := Nat.not_lt.mp h6
      have : 6 + (i - 6) = i := by omega
      simp [h6, h6', BitVec.getElem_ushiftRight, this, BitVec.getLsbD_eq_getElem hi]
  rw [h]
  simp only [BitVec.toNat_shiftLeft, BitVec.toNat_ushiftRight, Nat.shiftLeft_eq, Nat.shiftRight_eq_div_pow]
  have := a.isLt
  omega

/-- A BAD request, as a statement on address and mask (R1, R4). -/
theorem requestBad_iff (r : MemRequest) :
    requestBad r = true ↔
      (if r.isBlock = true then r.addr.toNat % 64 ≠ 0 else r.addr.toNat % 8 ≠ 0) ∨ ∃ a d, r = .writeWord a 0 d := by
  have ha : requestAligned r = true ↔ ¬(if r.isBlock = true then r.addr.toNat % 64 ≠ 0 else r.addr.toNat % 8 ≠ 0) := by
    unfold requestAligned
    split <;> simp
  have hb : (!requestAligned r) = true ↔
      (if r.isBlock = true then r.addr.toNat % 64 ≠ 0 else r.addr.toNat % 8 ≠ 0) := by
    rw [Bool.not_eq_true', ← Bool.not_eq_true, ha, not_not]
  rw [← hb]
  cases r <;> simp [requestBad]

/-! ## Serials and slots -/

theorem LogState.takeSerial_some {lc : LogState} (h : lc.nextSerial ≠ 0) :
    lc.takeSerial = some (lc.nextSerial, { lc with nextSerial := lc.nextSerial + 1 }) := if_neg h

theorem LogState.takeSerial_none {lc : LogState} (h : lc.nextSerial = 0) : lc.takeSerial = none := if_pos h

theorem State.slotAnswer_granted {s : State} (hd : s.lc.dead = false) (hl : s.lc.live ≠ s.log.slots) :
    s.slotAnswer = .granted := by
  simp [State.slotAnswer, hd, hl]

theorem State.slotAnswer_noSlot {s : State} (hd : s.lc.dead = false) (hl : s.lc.live = s.log.slots) :
    s.slotAnswer = .noSlot := by
  simp [State.slotAnswer, hd, hl]

/-- Everything a granted slot request does: head, live count and next sequence advance, the reservation joins the list,
and the high-water mark may be reported once (R27, R38). -/
theorem State.reserve_eq (s : State) (p : Purpose) (k : Nat) (w : Word32) :
    s.reserve p k w =
      { s with
        lc := { s.lc with
          head := (s.lc.head + 1) % s.log.slots, live := s.lc.live + 1, nextSequence := s.lc.nextSequence + 1
          reservations := s.lc.reservations ++
            [{ slot := s.lc.head, sequence := s.lc.nextSequence, purpose := p, level := k, serial := w, state := .pending,
               failure := none }]
          armed := if s.opts.highWater ≠ 0 ∧ s.lc.live + 1 = s.opts.highWater ∧ s.lc.armed = true then false
            else s.lc.armed }
        eq := if s.opts.highWater ≠ 0 ∧ s.lc.live + 1 = s.opts.highWater ∧ s.lc.armed = true then
            s.eq.push { kind := .logHigh, level := 0, condition := .none, serial := 0,
                        argument := BitVec.ofNat 32 (s.lc.live + 1) }
          else s.eq } := by
  by_cases h : s.opts.highWater ≠ 0 ∧ s.lc.live + 1 = s.opts.highWater ∧ s.lc.armed = true
  · rw [if_pos h, if_pos h]; exact if_pos h
  · rw [if_neg h, if_neg h]; exact if_neg h

/-- A level changed inside a stack, where it stands. -/
theorem List.modify_at_length {α : Type} (f : α → α) (base : List α) (b : α) (rest : List α) :
    (base ++ b :: rest).modify base.length f = base ++ f b :: rest := by
  induction base with
  | nil => rfl
  | cons x xs ih => simp [ih]

/-! ## Outcomes of the downstream port -/

theorem State.portOutcome_okay {s : State} {o : Owner} {d : BlockData} (h : s.endsWith o (.okay d)) :
    s.portOutcome (.okay d) = some (o, { s with dp := s.dp.freed }) := by
  obtain ⟨a, h1, h2, -⟩ := h
  simp [State.portOutcome, h1, h2]

theorem State.portOutcome_failed {s : State} {o : Owner} {f : MemFailure} (h : s.endsWith o (.failed f)) :
    s.portOutcome (.failed f) = some (o, { s with dp := s.dp.freed }) := by
  obtain ⟨a, h1, h2, h3⟩ := h
  have := h3 f rfl
  have : ¬a.failures + 1 < a.limit := by omega
  simp [State.portOutcome, h1, h2, this]

/-- Everything an outcome says: the port carried the owner's request, and stands idle. -/
theorem State.portOutcome_some {s t : State} {r : MemReply} {o : Owner} (h : s.portOutcome r = some (o, t)) :
    s.endsWith o r ∧ t = { s with dp := s.dp.freed } := by
  unfold State.portOutcome at h
  split at h
  · simp at h
  · rename_i a ha
    split at h
    · simp only [Option.some.injEq, Prod.mk.injEq] at h
      exact ⟨⟨a, ha, h.1, by simp⟩, h.2.symm⟩
    · split at h
      · simp at h
      · simp only [Option.some.injEq, Prod.mk.injEq] at h
        exact ⟨⟨a, ha, h.1, fun f _ => by omega⟩, h.2.symm⟩

/-! ## Answering, holding, discarding, deciding: the upstream port and the hold queue alone -/

theorem UpstreamPort.answer_idle {up : UpstreamPort} {r : Response} (h : up.state = .idle) : up.answer r = up := by
  simp [UpstreamPort.answer, h]

theorem UpstreamPort.answer_busy {up : UpstreamPort} {r : Response} (h : up.state ≠ .idle) :
    up.answer r = { up with state := .idle, answers := up.answers ++ [r] } := by
  unfold UpstreamPort.answer; split <;> simp_all

theorem UpstreamPort.answer_unstalled (up : UpstreamPort) (r : Response) : (up.answer r).unstalled := by
  intro reason q
  unfold UpstreamPort.answer
  split <;> simp_all

theorem State.hold_onlyChanges (s : State) (r : MemRequest) (cls : RequestClass) :
    OnlyChanges [.up, .hq] s (s.hold r cls) := by
  intro p hp
  unfold State.hold
  cases p <;> first | (exfalso; exact hp (by decide)) | (dsimp only; split <;> rfl)

theorem State.discardHeld_onlyChanges (s : State) (p : HoldEntry → Bool) :
    OnlyChanges [.up, .hq] s (s.discardHeld p) := by
  intro q hq
  unfold State.discardHeld
  cases q <;> first | (exfalso; exact hq (by decide)) | (dsimp only; split <;> rfl)

theorem State.decideRequest_onlyChanges (s : State) (r : MemRequest) : OnlyChanges [.up, .hq] s (s.decideRequest r) := by
  unfold State.decideRequest
  dsimp only
  split
  · intro p hp; cases p <;> first | (exfalso; exact hp (by decide)) | rfl
  · intro p hp; cases p <;> first | (exfalso; exact hp (by decide)) | rfl
  · split
    · split
      · exact State.hold_onlyChanges _ _ _
      · intro p hp; cases p <;> first | (exfalso; exact hp (by decide)) | rfl
    · intro p hp; cases p <;> first | (exfalso; exact hp (by decide)) | rfl

theorem redecide_onlyChanges (before after : State) : OnlyChanges [.up, .hq] after (redecide before after) := by
  unfold redecide
  split
  · split
    · exact State.decideRequest_onlyChanges _ _
    · exact OnlyChanges.refl _ _
  all_goals exact OnlyChanges.refl _ _

theorem redecide_unstalled {before after : State} (h : after.up.unstalled) : redecide before after = after := by
  unfold redecide
  split
  · rename_i a b c; exact absurd c (h _ _)
  all_goals rfl

section
variable (s : State) (p : HoldEntry → Bool)

@[simp] theorem State.discardHeld_resetLow : (s.discardHeld p).resetLow = s.resetLow :=
  s.discardHeld_onlyChanges p .resetLow (by decide)
@[simp] theorem State.discardHeld_windows : (s.discardHeld p).windows = s.windows :=
  s.discardHeld_onlyChanges p .windows (by decide)
@[simp] theorem State.discardHeld_log : (s.discardHeld p).log = s.log := s.discardHeld_onlyChanges p .log (by decide)
@[simp] theorem State.discardHeld_lc : (s.discardHeld p).lc = s.lc := s.discardHeld_onlyChanges p .lc (by decide)
@[simp] theorem State.discardHeld_cf : (s.discardHeld p).cf = s.cf := s.discardHeld_onlyChanges p .cf (by decide)
@[simp] theorem State.discardHeld_ce : (s.discardHeld p).ce = s.ce := s.discardHeld_onlyChanges p .ce (by decide)
@[simp] theorem State.discardHeld_oc : (s.discardHeld p).oc = s.oc := s.discardHeld_onlyChanges p .oc (by decide)
@[simp] theorem State.discardHeld_re : (s.discardHeld p).re = s.re := s.discardHeld_onlyChanges p .re (by decide)
@[simp] theorem State.discardHeld_dp : (s.discardHeld p).dp = s.dp := by
  unfold State.discardHeld; dsimp only; split <;> rfl
@[simp] theorem State.discardHeld_eq : (s.discardHeld p).eq = s.eq := s.discardHeld_onlyChanges p .eq (by decide)
@[simp] theorem State.discardHeld_link : (s.discardHeld p).link = s.link := s.discardHeld_onlyChanges p .link (by decide)
@[simp] theorem State.discardHeld_opts : (s.discardHeld p).opts = s.opts := s.discardHeld_onlyChanges p .opts (by decide)
@[simp] theorem State.discardHeld_pending : (s.discardHeld p).pending = s.pending :=
  s.discardHeld_onlyChanges p .pending (by decide)

/-- The entries a discard leaves, and the next acceptance number and pending read as they were. -/
@[simp] theorem State.discardHeld_hq :
    (s.discardHeld p).hq = { s.hq with entries := s.hq.entries.filter fun e => !(e.held && p e) } := by
  unfold State.discardHeld; dsimp only; split <;> rfl

/-- A discard answers ERROR where an entry it removes is not acknowledged. -/
theorem State.discardHeld_up :
    (s.discardHeld p).up =
      if (s.hq.entries.filter fun e => e.held && p e).any (fun e => !e.acknowledged) then s.up.answer .error
      else s.up := by
  unfold State.discardHeld; dsimp only; split <;> rfl

end

/-! ## The master path's request reads the controller and the hold queue alone -/

theorem State.eligible_congr {s t : State} (ho : t.oc = s.oc) (o : List HoldEntry) (e : HoldEntry) :
    t.eligible o e = s.eligible o e := by
  simp [State.eligible, State.trackBarred, ho]

theorem State.oldestEligible_congr {s t : State} (ho : t.oc = s.oc) (l : List HoldEntry) :
    ∀ o, t.oldestEligible o l = s.oldestEligible o l := by
  induction l with
  | nil => intro o; rfl
  | cons e rest ih => intro o; simp only [State.oldestEligible, State.eligible_congr ho, ih]

theorem State.masterStands_congr {s t : State} (ho : t.oc = s.oc) (hq : t.hq = s.hq) :
    t.masterStands = s.masterStands := by
  simp only [State.masterStands, State.readEligible, hq, State.oldestEligible_congr ho]

/-! ## What follows at once -/

/-- What follows reads the situation and the hold queue of the state before, and no more of it. -/
theorem finish_congr {b c a : State} (h1 : c.situation = b.situation) (h2 : c.hq = b.hq) : finish c a = finish b a := by
  unfold finish redecide; rw [h1, h2]

section
variable (b a : State)

@[simp] theorem redecide_resetLow : (redecide b a).resetLow = a.resetLow := redecide_onlyChanges b a .resetLow (by decide)
@[simp] theorem redecide_windows : (redecide b a).windows = a.windows := redecide_onlyChanges b a .windows (by decide)
@[simp] theorem redecide_log : (redecide b a).log = a.log := redecide_onlyChanges b a .log (by decide)
@[simp] theorem redecide_lc : (redecide b a).lc = a.lc := redecide_onlyChanges b a .lc (by decide)
@[simp] theorem redecide_cf : (redecide b a).cf = a.cf := redecide_onlyChanges b a .cf (by decide)
@[simp] theorem redecide_ce : (redecide b a).ce = a.ce := redecide_onlyChanges b a .ce (by decide)
@[simp] theorem redecide_oc : (redecide b a).oc = a.oc := redecide_onlyChanges b a .oc (by decide)
@[simp] theorem redecide_re : (redecide b a).re = a.re := redecide_onlyChanges b a .re (by decide)
@[simp] theorem redecide_port : (redecide b a).dp.port = a.dp.port := redecide_onlyChanges b a .port (by decide)
@[simp] theorem redecide_fairness : (redecide b a).dp.fairness = a.dp.fairness :=
  redecide_onlyChanges b a .fairness (by decide)
@[simp] theorem redecide_eq : (redecide b a).eq = a.eq := redecide_onlyChanges b a .eq (by decide)
@[simp] theorem redecide_link : (redecide b a).link = a.link := redecide_onlyChanges b a .link (by decide)
@[simp] theorem redecide_opts : (redecide b a).opts = a.opts := redecide_onlyChanges b a .opts (by decide)
@[simp] theorem redecide_pending : (redecide b a).pending = a.pending := redecide_onlyChanges b a .pending (by decide)

@[simp] theorem finish_resetLow : (finish b a).resetLow = a.resetLow := by simp [finish]
@[simp] theorem finish_windows : (finish b a).windows = a.windows := by simp [finish]
@[simp] theorem finish_log : (finish b a).log = a.log := by simp [finish]
@[simp] theorem finish_lc : (finish b a).lc = a.lc := by simp [finish]
@[simp] theorem finish_cf : (finish b a).cf = a.cf := by simp [finish]
@[simp] theorem finish_oc : (finish b a).oc = a.oc := by simp [finish]
@[simp] theorem finish_re : (finish b a).re = a.re := by simp [finish]
@[simp] theorem finish_port : (finish b a).dp.port = a.dp.port := by simp [finish]
@[simp] theorem finish_eq : (finish b a).eq = a.eq := by simp [finish]
@[simp] theorem finish_link : (finish b a).link = a.link := by simp [finish]
@[simp] theorem finish_opts : (finish b a).opts = a.opts := by simp [finish]
@[simp] theorem finish_pending : (finish b a).pending = a.pending := by simp [finish]
@[simp] theorem finish_up : (finish b a).up = (redecide b a).up := rfl
@[simp] theorem finish_hq : (finish b a).hq = (redecide b a).hq := rfl
@[simp] theorem finish_episode : (finish b a).ce.episode = a.ce.episode := by simp [finish]

@[simp] theorem finish_fairness :
    (finish b a).dp.fairness = if (finish b a).masterStands then a.dp.fairness else 0 := by
  have h : (finish b a).masterStands = (redecide b a).releaseWaits.masterStands :=
    State.masterStands_congr rfl rfl
  rw [h]; simp [finish]

/-- The contexts after a step: those whose order wait has ended read. -/
theorem finish_contexts :
    (finish b a).ce.contexts = a.ce.contexts.map fun c => c.map (·.release (redecide b a).hq.entries) := by
  simp [finish]

/-- No stalled request: the port and the hold queue are as the step left them. -/
theorem finish_up_of_unstalled {b a : State} (h : a.up.unstalled) : (finish b a).up = a.up := by
  simp [redecide_unstalled h]

theorem finish_hq_of_unstalled {b a : State} (h : a.up.unstalled) : (finish b a).hq = a.hq := by
  simp [redecide_unstalled h]

end

end Sys2Proof.Machine
end

