-- ==== Sys2Proof/Laws/Ops.lean ====
section
/-! SUPPORT. What the shared operations of the log, the stack, the fence and the arbiter do, one lemma for each: what it
changes, and what it leaves there. -/

namespace Sys2Proof.Machine

/-! ## Conditions, serials, levels -/

theorem failureCondition_eq (f : MemFailure) : failureCondition f = if f = .busy then .memBusy else .memError := by
  cases f <;> rfl

theorem Controller.innermost_append {oc : Controller} {base : List Level} {l : Level} (h : oc.stack = base ++ [l]) :
    oc.innermost = l.serial := by
  simp [Controller.innermost, Controller.serialAt, Controller.depth, Controller.level, h]

theorem Controller.innermost_getLast (oc : Controller) :
    oc.innermost = (oc.stack.getLast?.map Level.serial).getD 0 := by
  rcases List.eq_nil_or_concat oc.stack with h | ⟨b, l, h⟩
  · simp [Controller.innermost, Controller.serialAt, Controller.depth, Controller.level, h]
  · rw [List.concat_eq_append] at h
    rw [Controller.innermost_append h]; simp [h]

theorem Controller.level_depth {oc : Controller} {base : List Level} {l : Level} (h : oc.stack = base ++ [l]) :
    oc.level oc.depth = some l := by
  simp [Controller.level, Controller.depth, h]

/-! ## Breaking and popping (R42, R125) -/

theorem raiseBroken_onlyChanges (c : Condition) (a : Word32) (ls : List Level) :
    ∀ (k : Nat) (s : State), OnlyChanges [.eq] s (raiseBroken c a k ls s) := by
  induction ls with
  | nil => exact fun k s => OnlyChanges.refl _ _
  | cons l rest ih =>
    intro k s
    simp only [raiseBroken]
    refine OnlyChanges.trans ?_ (ih _ _)
    split
    · exact OnlyChanges.refl _ _
    · intro p hp; cases p <;> first | (exfalso; exact hp (by decide)) | rfl

theorem State.breakAll_onlyChanges (s : State) (c : Condition) (a : Word32) :
    OnlyChanges [.eq, .oc, .re] s (s.breakAll c a) := by
  have h := raiseBroken_onlyChanges c a s.oc.stack 1 s
  intro p hp
  have h' := h p (fun hm => hp (by simp_all))
  unfold State.breakAll
  cases p <;> first | (exfalso; exact hp (by decide)) | exact h'

/-- A break request marks every level, and leaves the rest of the controller. -/
@[simp] theorem State.breakAll_oc (s : State) (c : Condition) (a : Word32) :
    (s.breakAll c a).oc = { s.oc with stack := s.oc.stack.map fun l => { l with broken := true } } := by
  have h : (raiseBroken c a 1 s.oc.stack s).oc = s.oc := raiseBroken_onlyChanges c a s.oc.stack 1 s .oc (by decide)
  unfold State.breakAll; simp only [h]

/-- A break request that finds every level broken does nothing. -/
theorem State.breakAll_of_broken {s : State} (c : Condition) (a : Word32) (h : ∀ l ∈ s.oc.stack, l.broken = true)
    (hst : s.re.stage ≠ .settling) : s.breakAll c a = s := by
  have hr : ∀ (ls : List Level) (k : Nat) (t : State), (∀ l ∈ ls, l.broken = true) → raiseBroken c a k ls t = t := by
    intro ls
    induction ls with
    | nil => intros; rfl
    | cons x xs ih =>
      intro k t hx
      simp only [raiseBroken, hx x (by simp), if_true]
      exact ih _ _ (fun l hl => hx l (by simp [hl]))
  have hm : (s.oc.stack.map fun l => { l with broken := true }) = s.oc.stack := by
    conv_rhs => rw [← List.map_id s.oc.stack]
    apply List.map_congr_left
    intro l hl
    have := h l hl
    cases l
    simp_all
  unfold State.breakAll
  rw [hr _ _ _ h]
  simp [hm, hst]

/-- The pop of the innermost level (R125 steps 1 to 4). -/
theorem State.popLevel_eq {s : State} {base : List Level} {l : Level} (h : s.oc.stack = base ++ [l]) :
    s.popLevel = { s with
      oc := { s.oc with
        stack := base, stamp := (base.getLast?.map Level.serial).getD 0
        timer := if base = [] then none else s.oc.timer
        rotationPending := if base = [] then false else s.oc.rotationPending }
      cf := s.cf.filter fun e => decide (e.level ≠ base.length + 1) } := by
  have hi : ∀ oc : Controller, oc.innermost = (oc.stack.getLast?.map Level.serial).getD 0 :=
    Controller.innermost_getLast
  unfold State.popLevel State.stopTimerIfEmpty
  by_cases hb : base = []
  · subst hb
    apply State.ext <;> simp [State.popInnermost, h, State.stopTimer, filterInvalidate, Controller.depth, hi]
  · apply State.ext <;> simp [State.popInnermost, h, filterInvalidate, Controller.depth, hb, hi]

theorem State.popLevel_onlyChanges (s : State) : OnlyChanges [.cf, .oc] s s.popLevel := by
  unfold State.popLevel State.stopTimerIfEmpty
  intro p hp
  split <;> cases p <;> first | (exfalso; exact hp (by decide)) | rfl

theorem State.popLevels_onlyChanges (n : Nat) : ∀ s : State, OnlyChanges [.cf, .oc] s (s.popLevels n) := by
  induction n with
  | zero => exact fun s => OnlyChanges.refl _ _
  | succ n ih => exact fun s => OnlyChanges.trans s.popLevel_onlyChanges (ih _)

/-! ## Anchors and copies (R32, R36) -/

section
variable (lc : LogState) (name : CopyName) (c : AnchorCopy)

@[simp] theorem LogState.setCopy_tail : (lc.setCopy name c).tail = lc.tail := by cases name <;> rfl
@[simp] theorem LogState.setCopy_tailSequence : (lc.setCopy name c).tailSequence = lc.tailSequence := by
  cases name <;> rfl
@[simp] theorem LogState.setCopy_head : (lc.setCopy name c).head = lc.head := by cases name <;> rfl
@[simp] theorem LogState.setCopy_live : (lc.setCopy name c).live = lc.live := by cases name <;> rfl
@[simp] theorem LogState.setCopy_durable : (lc.setCopy name c).durable = lc.durable := by cases name <;> rfl
@[simp] theorem LogState.setCopy_nextSequence : (lc.setCopy name c).nextSequence = lc.nextSequence := by
  cases name <;> rfl
@[simp] theorem LogState.setCopy_session : (lc.setCopy name c).session = lc.session := by cases name <;> rfl
@[simp] theorem LogState.setCopy_nextSerial : (lc.setCopy name c).nextSerial = lc.nextSerial := by cases name <;> rfl
@[simp] theorem LogState.setCopy_reservations : (lc.setCopy name c).reservations = lc.reservations := by
  cases name <;> rfl
@[simp] theorem LogState.setCopy_writes : (lc.setCopy name c).writes = lc.writes := by cases name <;> rfl
@[simp] theorem LogState.setCopy_attachRead : (lc.setCopy name c).attachRead = lc.attachRead := by cases name <;> rfl
@[simp] theorem LogState.setCopy_armed : (lc.setCopy name c).armed = lc.armed := by cases name <;> rfl
@[simp] theorem LogState.setCopy_dead : (lc.setCopy name c).dead = lc.dead := by cases name <;> rfl

end

/-- What the requester of an anchor does leaves session, tail, tail sequence, both copies and the port as the anchor
left them. -/
theorem State.anchorDone_ring (s : State) (o : AnchorOccasion) :
    (s.anchorDone o).lc.session = s.lc.session ∧ (s.anchorDone o).lc.tail = s.lc.tail
      ∧ (s.anchorDone o).lc.tailSequence = s.lc.tailSequence ∧ (s.anchorDone o).dp = s.dp
      ∧ (s.anchorDone o).lc.copyA = s.lc.copyA ∧ (s.anchorDone o).lc.copyB = s.lc.copyB := by
  cases o <;> simp only [State.anchorDone]
  case attachKeep => simp [State.attached]
  case formatA => simp
  case formatB => simp [State.attached]
  case commit => unfold State.committed; split <;> simp
  case openReclaim => simp
  case rotateReclaim => simp
  case rotateMarker => unfold State.rotated; split <;> simp [State.replaceLevelOne]
  case rotateFirst => unfold State.rotatedFirst; split <;> simp [State.replaceLevelOne, State.reserve_eq]
  case rollback => unfold State.rolledBack State.leaveFreeze; simp; split <;> (try split) <;> simp
  case discard => simp
  case recovery => simp [State.recovered]

/-! ## The durable mark (R29, R86) -/

/-- The report for a durable slot frees its context and the writes that depended on it. -/
theorem State.slotDurable_leaves (s : State) (slot : Nat) :
    s.slotDurable slot = { s with
      ce := { s.ce with contexts := s.ce.contexts.map fun x => x.filter fun y => decide (y.slot ≠ slot) }
      hq := { s.hq with
        entries := s.hq.entries.map fun e => if e.capture = .depends slot then { e with capture := .free } else e } } := by
  have h : (s.ce.contexts.map fun c =>
        match c with
        | some x => if x.slot = slot then none else some x
        | none => none) = s.ce.contexts.map fun x => x.filter fun y => decide (y.slot ≠ slot) := by
    apply List.map_congr_left
    intro c _
    cases c <;> simp [Option.filter]
  rw [← h]
  rfl

/-- The mark stays where the next slot is not WRITTEN. -/
theorem advanceOver_of_unwritten {rest : List Reservation} (h : ∀ x ∈ rest, x.state ≠ .written) (s : State) :
    advanceOver rest s = s := by
  cases rest with
  | nil => rfl
  | cons x xs => unfold advanceOver; rw [if_neg]; simp [h x (by simp)]

theorem LogState.setReservation_other {rest : List Reservation} {slot : Nat} (h : ∀ x ∈ rest, x.slot ≠ slot)
    (f : Reservation → Reservation) : (rest.map fun x => if x.slot = slot then f x else x) = rest := by
  conv_rhs => rw [← List.map_id rest]
  apply List.map_congr_left
  intro x hx
  simp [h x hx]

/-- The first reservation's write completes, the one after is not WRITTEN: the mark passes that slot alone. -/
theorem State.advanceMark_first {s : State} {r : Reservation} {rest : List Reservation}
    (hr : s.lc.reservations = r :: rest) (hd : s.lc.durable < s.lc.live)
    (h : ∀ x ∈ rest, x.slot ≠ r.slot ∧ x.state ≠ .written) :
    (s.slotWritten r.slot).advanceMark =
      ({ s with lc := { s.lc with reservations := rest, durable := s.lc.durable + 1 } } : State).passEntry
        { r with state := .written } := by
  have hw : (s.slotWritten r.slot).lc.reservations = { r with state := .written } :: rest := by
    simp [LogState.setReservation, hr, LogState.setReservation_other fun x hx => (h x hx).1]
  unfold State.advanceMark
  rw [hw]
  unfold advanceOver
  rw [if_pos (by simp [LogState.setReservation, hd]), advanceOver_of_unwritten fun x hx => (h x hx).2]
  simp [State.slotWritten, LogState.setReservation]

/-! ## The fence and the dead log (R39, R168, R169) -/

theorem State.abandonEpochOp_onlyChanges (s : State) : OnlyChanges [.oc, .eq] s s.abandonEpochOp := by
  intro p hp
  unfold State.abandonEpochOp
  cases s.oc.phase <;> cases p <;> first | (exfalso; exact hp (by decide)) | rfl

theorem State.dropLatch_onlyChanges (s : State) : OnlyChanges [.oc, .eq] s s.dropLatch := by
  intro p hp
  unfold State.dropLatch
  split <;> cases p <;> first | (exfalso; exact hp (by decide)) | rfl

@[simp] theorem State.dropLatch_oc (s : State) : s.dropLatch.oc = { s.oc with latch := false } := by
  unfold State.dropLatch
  cases h : s.oc.latch <;> simp
  ext <;> simp [h]

/-- Everything a declaration that the log is dead does: the log, the contexts and the operation end, the part is FENCED
for LOG_DEAD, and the HELD TRACK writes go. -/
theorem State.declareDead_leaves (s : State) (f : MemFailure) :
    let t := s.declareDead f
    (t.lc = { s.lc with dead := true, reservations := [], writes := [] } ∧ t.ce = CaptureEngine.reset ∧ t.dp = s.dp
      ∧ t.re = { s.re with stage := .idle } ∧ t.windows = s.windows ∧ t.log = s.log ∧ t.cf = s.cf ∧ t.opts = s.opts
      ∧ t.link = s.link)
    ∧ (t.oc.mode = .fenced ∧ t.oc.fence = .logDead ∧ t.oc.op = .idle ∧ t.oc.phase = .none ∧ t.oc.successor = none
      ∧ t.oc.bar = none ∧ t.oc.latch = false ∧ t.oc.timer = none ∧ t.oc.rotationPending = false)
    ∧ t.hq = { s.hq with entries := s.hq.entries.filter fun e => !(e.held && e.isTrack) } := by
  intro t
  have ha := fun u : State => u.abandonEpochOp_onlyChanges
  have hd := fun u : State => u.dropLatch_onlyChanges
  have a1 : ∀ u : State, u.abandonEpochOp.lc = u.lc := fun u => ha u .lc (by decide)
  have a2 : ∀ u : State, u.abandonEpochOp.ce = u.ce := fun u => ha u .ce (by decide)
  have a3 : ∀ u : State, u.abandonEpochOp.dp = u.dp := fun u =>
    DownstreamPort.ext (ha u .port (by decide)) (ha u .fairness (by decide)) (ha u .calm (by decide))
  have a4 : ∀ u : State, u.abandonEpochOp.re = u.re := fun u => ha u .re (by decide)
  have a5 : ∀ u : State, u.abandonEpochOp.windows = u.windows := fun u => ha u .windows (by decide)
  have a6 : ∀ u : State, u.abandonEpochOp.log = u.log := fun u => ha u .log (by decide)
  have a7 : ∀ u : State, u.abandonEpochOp.cf = u.cf := fun u => ha u .cf (by decide)
  have a8 : ∀ u : State, u.abandonEpochOp.opts = u.opts := fun u => ha u .opts (by decide)
  have a9 : ∀ u : State, u.abandonEpochOp.link = u.link := fun u => ha u .link (by decide)
  have a10 : ∀ u : State, u.abandonEpochOp.hq = u.hq := fun u => ha u .hq (by decide)
  have d1 : ∀ u : State, u.dropLatch.lc = u.lc := fun u => hd u .lc (by decide)
  have d2 : ∀ u : State, u.dropLatch.ce = u.ce := fun u => hd u .ce (by decide)
  have d3 : ∀ u : State, u.dropLatch.dp = u.dp := fun u =>
    DownstreamPort.ext (hd u .port (by decide)) (hd u .fairness (by decide)) (hd u .calm (by decide))
  have d4 : ∀ u : State, u.dropLatch.re = u.re := fun u => hd u .re (by decide)
  have d5 : ∀ u : State, u.dropLatch.windows = u.windows := fun u => hd u .windows (by decide)
  have d6 : ∀ u : State, u.dropLatch.log = u.log := fun u => hd u .log (by decide)
  have d7 : ∀ u : State, u.dropLatch.cf = u.cf := fun u => hd u .cf (by decide)
  have d8 : ∀ u : State, u.dropLatch.opts = u.opts := fun u => hd u .opts (by decide)
  have d9 : ∀ u : State, u.dropLatch.link = u.link := fun u => hd u .link (by decide)
  have d10 : ∀ u : State, u.dropLatch.hq = u.hq := fun u => hd u .hq (by decide)
  refine ⟨?_, ?_, ?_⟩
  · simp [t, State.declareDead, State.enterFence, State.fenceDiscard, State.endForDeadLog, a1, a2, a3, a4, a5, a6, a7, a8, a9,
      d1, d2, d3, d4, d5, d6, d7, d8, d9]
  · simp [t, State.declareDead, State.enterFence, State.fenceDiscard, State.endForDeadLog]
  · simp [t, State.declareDead, State.enterFence, State.fenceDiscard, State.endForDeadLog, a10, d10]

/-! ## The filter keeps a block once and a way once a set (R62 to R71) -/

/-- Nothing but entries leaves. -/
theorem filterOrderly_filter {s : State} (h : s.filterOrderly) (p : FilterEntry → Bool) (t : State)
    (ht : t.cf = s.cf.filter p) : t.filterOrderly := by
  obtain ⟨h1, h2, h3⟩ := h
  unfold State.filterOrderly
  rw [ht]
  refine ⟨?_, ?_, ?_⟩
  · exact h1.sublist (List.filter_sublist.map _)
  · exact fun e he => h2 e (List.mem_of_mem_filter he)
  · exact h3.sublist List.filter_sublist

/-- Only levels change. -/
theorem filterOrderly_relabel {s : State} (h : s.filterOrderly) (f : FilterEntry → FilterEntry)
    (hb : ∀ e, (f e).block = e.block) (hw : ∀ e, (f e).way = e.way) (t : State) (ht : t.cf = s.cf.map f) :
    t.filterOrderly := by
  obtain ⟨h1, h2, h3⟩ := h
  unfold State.filterOrderly
  rw [ht]
  refine ⟨?_, ?_, ?_⟩
  · rw [List.map_map]
    have : FilterEntry.block ∘ f = FilterEntry.block := funext hb
    rwa [this]
  · intro e he
    obtain ⟨x, hx, rfl⟩ := List.mem_map.mp he
    rw [hw]; exact h2 x hx
  · rw [List.pairwise_map]
    exact h3.imp fun hxy => by simpa [hb, hw] using hxy

/-! ## The event queue (R183) -/

theorem EventQueue.push_records_le (q : EventQueue) (e : EventRecord) (h : q.records.length ≤ 16) :
    (q.push e).records.length ≤ 16 := by
  unfold EventQueue.push
  split <;> simp <;> omega

theorem EventQueue.push_lost_le (q : EventQueue) (e : EventRecord) (h : q.lost ≤ 255) : (q.push e).lost ≤ 255 := by
  unfold EventQueue.push
  split <;> simp <;> omega

end Sys2Proof.Machine
end

