-- ==== Sys2Proof/Laws/Steps.lean ====
section
/-! SUPPORT. What a step can do, said once: the effect each command has of its own, and the rule by which an invariant is
kept by every step. -/

namespace Sys2Proof.Machine

/-- The reply's state, where the owner takes the command. -/
def Reply.leaves (r : Reply) (t : State) : Prop := ∃ code data, r = .done code data t

/-- The state `t` that the command's own effect leaves, before what follows at once and before its result. -/
def Does (c : Instr) (s t : State) : Prop :=
  match c with
  | .pinReset => t = { State.reset with resetLow := true, pending := s.pending }
  | .resetnRelease b => t = { s with resetLow := false, oc := { s.oc with faultLine := b } }
  | .responseToAbandonedRequest _ => t = s
  | .frameBegin => t = s
  | .frameError _ => t = s
  | .nop => t = s
  | .status => t = { s with eq := { s.eq with lost := 0 } }
  | .faultAssertion => s.assertFault = some t
  | .faultDeassertion => s.deassertFault = some t
  | .upstreamRequest r => s.receive r = some t
  | .rotationTimerExpiry => s.timerExpires = some t
  | .pendingRotationTaken => s.takePendingRotation = some t
  | .faultLatchTaken => s.takeLatch = some t
  | .consideration => s.consider = some t
  | .downstreamGrant first => s.grant first = some t
  | .downstreamReissue f => s.reissue f = some t
  | .masterReadComplete r => s.readEnds r = some t
  | .masterWriteComplete => s.writeEnds = some t
  | .masterWriteFailed f => s.writeFails f = some t
  | .captureReadComplete d => s.captureRead d = some t
  | .capturePayloadWriteComplete => s.capturePayload = some t
  | .captureHeaderWriteComplete => s.captureHeader = some t
  | .captureRequestFailed f => s.captureFails f = some t
  | .markerWriteComplete => s.markerWritten = some t
  | .markerWriteFailed f => s.markerWriteFails f = some t
  | .voidWriteComplete => s.voidWritten = some t
  | .voidWriteFailed f => s.voidWriteFails f = some t
  | .anchorWriteComplete => s.anchorWritten = some t
  | .anchorWriteFailed f => s.anchorWriteFails f = some t
  | .anchorReadComplete r => s.anchorRead r = some t
  | .tailReadComplete r => s.tailRead r = some t
  | .replayReadComplete r => s.replayRead r = some t
  | .restoreWriteComplete r => s.restoreEnds r = some t
  | .scanReadComplete r => s.scanRead r = some t
  | .recoveryReadComplete r => s.recoveryRead r = some t
  | .recoveryRestoreComplete r => s.recoveryRestoreEnds r = some t
  | .attachDrainEnd => s.drainEnds = some t
  | .orderingWaitEnd => s.orderingEnds = some t
  | .commitWaitEnd => s.commitWaitEnds = some t
  | .rotateWaitEnd => s.rotateWaitEnds = some t
  | .settlingEnd => s.settle = some t
  | .detachComplete => s.detachCompletes = some t
  | .attachKeep a => (s.attach a).leaves t
  | .attachFormat => (s.attach 0x01).leaves t
  | .recover => (s.recover).leaves t
  | .detach => (s.detach).leaves t
  | .openEpoch => (s.openEpoch).leaves t
  | .commit => (s.commit).leaves t
  | .rotate => (s.rotate).leaves t
  | .rollback j => (s.rollback j).leaves t
  | .abort => (s.abort).leaves t
  | .resume => (s.resume).leaves t
  | .discard => (s.discard).leaves t
  | .thaw => (s.thaw).leaves t
  | .event => (s.readEvent).leaves t
  | .level k => (s.readLevel k).leaves t
  | .setwin i b l m => (s.setwin i b l m).leaves t
  | .clrwin i => (s.clrwin i).leaves t
  | .setlog b n => (s.setlog b n).leaves t
  | .setoptWriteMode v => (s.setWriteMode v).leaves t
  | .setoptRetryLimit v => (s.setRetryLimit v).leaves t
  | .setoptLogFullPolicy v => (s.setLogFull v).leaves t
  | .setoptHighWaterMark v => (s.setHighWater v).leaves t
  | .setoptFaultPolicy v => (s.setFaultPolicy v).leaves t
  | .setoptRotationPeriod v => (s.setRotationPeriod v).leaves t
  | .setoptUnknownOption _ _ => (s.unknownOption).leaves t

theorem claim_does {f : State → Option State} {s t : State} (h : claim f s = .next t) :
    t = s ∨ ∃ u, f s = some u ∧ t = finish s u := by
  rcases claim_cases f s with h' | ⟨u, -, hu, h'⟩
  · rw [h'] at h; injection h with h; exact .inl h.symm
  · rw [h'] at h; injection h with h; exact .inr ⟨u, hu, h.symm⟩

theorem command_does {f : State → Reply} {s t : State} (h : command f s = .next t) :
    (∃ l, t = { s with link := l }) ∨ ∃ u l, (f s).leaves u ∧ t = { finish s u with link := l } := by
  rcases command_cases f s with h' | ⟨code, -, h'⟩ | ⟨code, data, u, hu, h'⟩ <;> rw [h'] at h <;> injection h with h
  · exact .inl ⟨_, h.symm⟩
  · exact .inl ⟨_, h.symm⟩
  · exact .inr ⟨u, _, ⟨code, data, hu⟩, h.symm⟩

theorem query_does {f : State → Reply} {s t : State} (h : query f s = .next t) :
    (∃ l, t = { s with link := l }) ∨ ∃ u l, (f s).leaves u ∧ t = { u with link := l } := by
  rcases query_cases f s with h' | ⟨code, -, h'⟩ | ⟨code, data, u, hu, h'⟩ <;> rw [h'] at h <;> injection h with h
  · exact .inl ⟨_, h.symm⟩
  · exact .inl ⟨_, h.symm⟩
  · exact .inr ⟨u, _, ⟨code, data, hu⟩, h.symm⟩

/-- What a command leaves: the state as it was but for the link, or its own effect with what follows at once, or its own
effect alone; in each case the link may show a result. -/
def Outcomes (c : Instr) (s t : State) : Prop :=
  (∃ l, t = { s with link := l })
  ∨ (∃ u l, Does c s u ∧ t = { finish s u with link := l })
  ∨ ∃ u l, Does c s u ∧ t = { u with link := l }

theorem Outcomes.of_claim {c : Instr} {f : State → Option State} {s t : State} (hd : ∀ u, f s = some u → Does c s u)
    (h : claim f s = .next t) : Outcomes c s t := by
  rcases claim_does h with rfl | ⟨u, hu, rfl⟩
  · exact .inl ⟨t.link, rfl⟩
  · exact .inr (.inl ⟨u, _, hd u hu, rfl⟩)

theorem Outcomes.of_command {c : Instr} {f : State → Reply} {s t : State} (hd : ∀ u, (f s).leaves u → Does c s u)
    (h : command f s = .next t) : Outcomes c s t := by
  rcases command_does h with ⟨l, rfl⟩ | ⟨u, l, hu, rfl⟩
  · exact .inl ⟨l, rfl⟩
  · exact .inr (.inl ⟨u, l, hd u hu, rfl⟩)

theorem Outcomes.of_query {c : Instr} {f : State → Reply} {s t : State} (hd : ∀ u, (f s).leaves u → Does c s u)
    (h : query f s = .next t) : Outcomes c s t := by
  rcases query_does h with ⟨l, rfl⟩ | ⟨u, l, hu, rfl⟩
  · exact .inl ⟨l, rfl⟩
  · exact .inr (.inr ⟨u, l, hd u hu, rfl⟩)

/-- Everything `exec` can answer. -/
theorem exec_outcomes {c : Instr} {s t : State} (h : exec c s = .next t) : Outcomes c s t := by
  cases c
  case pinReset => injection h with h; exact .inr (.inr ⟨_, _, rfl, h.symm⟩)
  case resetnRelease b =>
    simp only [exec, execResetnRelease] at h
    split at h <;> injection h with h
    · exact .inr (.inr ⟨_, _, rfl, h.symm⟩)
    · exact .inl ⟨_, h.symm⟩
  case responseToAbandonedRequest => injection h with h; exact .inl ⟨_, h.symm⟩
  case frameBegin =>
    simp only [exec, execFrameBegin] at h
    split at h <;> injection h with h <;> exact .inl ⟨_, h.symm⟩
  case frameError =>
    simp only [exec, execFrameError] at h
    split at h
    · injection h with h; exact .inl ⟨_, h.symm⟩
    · split at h <;> injection h with h <;> exact .inl ⟨_, h.symm⟩
  case nop =>
    exact .of_query (f := fun s => .done .ok [] s) (fun u ⟨_, _, hu⟩ => by injection hu with _ _ hu; exact hu.symm) h
  case status =>
    exact .of_query (f := fun s => .done .ok s.statusBlock { s with eq := { s.eq with lost := 0 } })
      (fun u ⟨_, _, hu⟩ => by injection hu with _ _ hu; exact hu.symm) h
  case faultAssertion | faultDeassertion | upstreamRequest | rotationTimerExpiry | pendingRotationTaken |
    faultLatchTaken | consideration | downstreamGrant | downstreamReissue | masterReadComplete | masterWriteComplete |
    masterWriteFailed | captureReadComplete | capturePayloadWriteComplete | captureHeaderWriteComplete |
    captureRequestFailed | markerWriteComplete | markerWriteFailed | voidWriteComplete | voidWriteFailed |
    anchorWriteComplete | anchorWriteFailed | anchorReadComplete | tailReadComplete | replayReadComplete |
    restoreWriteComplete | scanReadComplete | recoveryReadComplete | recoveryRestoreComplete | attachDrainEnd |
    orderingWaitEnd | commitWaitEnd | rotateWaitEnd | settlingEnd | detachComplete =>
    exact .of_claim (fun _ hu => hu) h
  case attachKeep | attachFormat | recover | detach | openEpoch | commit | rotate | rollback | abort | resume |
    discard | thaw =>
    exact .of_command (fun _ hu => hu) h
  case event | level | setwin | clrwin | setlog | setoptWriteMode | setoptRetryLimit | setoptLogFullPolicy |
    setoptHighWaterMark | setoptFaultPolicy | setoptRotationPeriod | setoptUnknownOption =>
    exact .of_query (fun _ hu => hu) h

/-- An invariant that the clock, the queue, the link, what follows at once and each command's own effect keep is kept by
every step. -/
theorem step_keeps {inv : State → Prop} (queue : ∀ s p, inv s → inv { s with pending := p })
    (link : ∀ s l, inv s → inv { s with link := l })
    (clock : ∀ s n, inv s → inv { s with oc := { s.oc with timer := n } })
    (follow : ∀ s t, inv s → inv t → inv (finish s t)) (does : ∀ c s t, inv s → Does c s t → inv t) {s t : State}
    (hs : inv s) (h : step s = .next t) : inv t := by
  unfold step at h
  split at h
  · injection h with h
    subst h
    unfold State.tick
    split
    · exact hs
    · exact queue _ _ hs
    · rename_i m _
      exact queue { s with oc := { s.oc with timer := some m } } _ (clock s (some m) hs)
  · rename_i c rest _
    have hs' := queue s rest hs
    rcases exec_outcomes h with ⟨l, rfl⟩ | ⟨u, l, hu, rfl⟩ | ⟨u, l, hu, rfl⟩
    · exact link _ _ hs'
    · exact link _ _ (follow _ _ hs' (does _ _ _ hs' hu))
    · exact link _ _ (does _ _ _ hs' hu)

end Sys2Proof.Machine
end

