-- ==== Sys2Proof/Laws/Frames.lean ====
section
/-! SUPPORT. Which parts of the state each command's own effect may change: its frame. -/

namespace Sys2Proof.Machine

/-- The parts a command's own effect may change. -/
def footprint : Instr → List Part
  | .pinReset => [.resetLow, .up, .windows, .log, .lc, .hq, .cf, .ce, .oc, .re, .port, .fairness, .calm, .eq, .link, .opts]
  | .resetnRelease _ => [.resetLow, .oc]
  | .responseToAbandonedRequest _ => []
  | .frameBegin => []
  | .frameError _ => []
  | .nop => []
  | .level _ => []
  | .setoptUnknownOption _ _ => []
  | .status => [.eq]
  | .event => [.eq]
  | .setwin _ _ _ _ => [.windows]
  | .clrwin _ => [.windows]
  | .setlog _ _ => [.log, .lc]
  | .setoptWriteMode _ => [.opts]
  | .setoptRetryLimit _ => [.opts]
  | .setoptLogFullPolicy _ => [.opts]
  | .setoptHighWaterMark _ => [.opts, .lc]
  | .setoptFaultPolicy _ => [.opts]
  | .setoptRotationPeriod _ => [.opts]
  | .attachKeep _ => [.oc, .lc, .hq, .up, .eq]
  | .attachFormat => [.oc, .lc, .hq, .up, .eq]
  | .recover => [.oc, .re]
  | .detach => [.oc, .lc]
  | .openEpoch => [.oc, .lc]
  | .commit => [.oc, .lc, .cf, .ce, .hq, .eq]
  | .rotate => [.oc, .lc]
  | .rollback _ => [.oc, .re, .hq, .up]
  | .abort => [.re]
  | .resume => [.oc, .re]
  | .discard => [.oc, .re, .cf, .lc, .eq]
  | .thaw => [.oc]
  | .faultAssertion => [.oc, .re, .hq, .up, .eq]
  | .faultDeassertion => [.oc]
  | .faultLatchTaken => [.oc, .re, .hq, .up, .eq]
  | .upstreamRequest _ => [.up, .hq]
  | .rotationTimerExpiry => [.oc, .lc, .eq]
  | .pendingRotationTaken => [.oc, .lc, .eq]
  | .consideration => [.hq, .cf, .ce, .lc, .eq, .oc, .re]
  | .downstreamGrant _ => [.port, .fairness, .calm, .lc, .hq]
  | .downstreamReissue _ => [.port]
  | .masterReadComplete _ => [.port, .hq, .up]
  | .masterWriteComplete => [.port, .hq, .up]
  | .masterWriteFailed _ => [.port, .hq, .up, .eq]
  | .captureReadComplete _ => [.port, .ce]
  | .capturePayloadWriteComplete => [.port, .ce]
  | .captureHeaderWriteComplete => [.port, .ce, .lc, .hq, .oc, .eq]
  | .captureRequestFailed _ => [.port, .ce, .lc, .hq, .up, .cf, .oc, .re, .eq]
  | .markerWriteComplete => [.port, .ce, .lc, .hq, .oc, .eq]
  | .markerWriteFailed _ => [.port, .lc]
  | .voidWriteComplete => [.port, .ce, .lc, .hq, .oc, .eq]
  | .voidWriteFailed _ => [.port, .ce, .lc, .hq, .up, .oc, .re, .eq]
  | .anchorWriteComplete => [.port, .ce, .lc, .hq, .cf, .oc, .re, .eq]
  | .anchorWriteFailed _ => [.port, .ce, .lc, .hq, .up, .oc, .re, .eq]
  | .anchorReadComplete _ => [.port, .lc, .oc, .eq]
  | .tailReadComplete _ => [.port, .lc, .oc, .eq]
  | .replayReadComplete _ => [.port, .re, .oc, .cf, .lc, .eq]
  | .restoreWriteComplete _ => [.port, .re, .oc, .eq]
  | .scanReadComplete _ => [.port, .re, .lc, .eq]
  | .recoveryReadComplete _ => [.port, .re, .lc, .eq]
  | .recoveryRestoreComplete _ => [.port, .re, .lc, .eq]
  | .attachDrainEnd => [.oc, .lc]
  | .orderingWaitEnd => [.oc, .re, .lc, .hq, .up, .eq]
  | .commitWaitEnd => [.oc, .lc]
  | .rotateWaitEnd => [.oc, .lc, .eq]
  | .settlingEnd => [.re, .oc, .eq]
  | .detachComplete => [.oc, .re, .hq, .up, .cf, .ce, .lc, .eq]

/-! ## The shared operations -/

theorem Reply.leaves_refuse {c t} : (Reply.refuse c).leaves t ↔ False := by simp [Reply.leaves]
theorem Reply.leaves_done {c d u t} : (Reply.done c d u).leaves t ↔ u = t := by simp [Reply.leaves]

theorem State.portOutcome_frame (s : State) (r o t) (h : s.portOutcome r = some (o, t)) :
    OnlyChanges [.port] s t := by
  obtain ⟨-, rfl⟩ := State.portOutcome_some h
  intro p hp; cases p <;> first | exact absurd (by decide) hp | rfl

theorem State.acceptRollback_frame (s : State) (j o) : OnlyChanges [.oc, .re, .hq, .up] s (s.acceptRollback j o) := by
  unfold State.acceptRollback
  refine OnlyChanges.trans ?_ ((State.discardHeld_onlyChanges _ _).mono (by decide))
  intro p hp; cases p <;> first | exact absurd (by decide) hp | rfl

theorem State.enterFence_frame (s : State) (r c) : OnlyChanges [.oc, .hq, .up, .eq] s (s.enterFence r c) := by
  unfold State.enterFence
  simp only
  have h : ∀ u : State, OnlyChanges [.hq, .up] u (u.fenceDiscard r) := by
    intro u; cases r
    · intro p hp; cases p <;> first | exact absurd (by decide) hp | rfl
    · intro p hp; cases p <;> first | exact absurd (by decide) hp | rfl
    · exact (State.discardHeld_onlyChanges _ _).mono (by decide)
    · exact (State.discardHeld_onlyChanges _ _).mono (by decide)
  refine OnlyChanges.trans (t := ({ s with oc := { s.oc with mode := .fenced, fence := r } } : State).stopTimer) ?_ ?_
  · intro p hp; cases p <;> first | exact absurd (by decide) hp | rfl
  · refine OnlyChanges.trans ((h _).mono (by decide)) ?_
    intro p hp; cases p <;> first | exact absurd (by decide) hp | rfl

theorem State.reserve_frame (s : State) (p k w) : OnlyChanges [.lc, .eq] s (s.reserve p k w) := by
  rw [State.reserve_eq]
  intro p hp; cases p <;> first | exact absurd (by decide) hp | rfl

theorem State.faultRollback_frame (s : State) (j) : OnlyChanges [.oc, .re, .hq, .up, .eq] s (s.faultRollback j) := by
  unfold State.faultRollback
  split
  · refine OnlyChanges.trans ?_ ((State.enterFence_frame _ _ _).mono (by decide))
    intro p hp; cases p <;> first | exact absurd (by decide) hp | rfl
  · refine OnlyChanges.trans ((State.acceptRollback_frame s j .fault).mono (by decide)) ?_
    intro p hp; cases p <;> first | exact absurd (by decide) hp | rfl

theorem State.actOnFault_frame (s : State) : OnlyChanges [.oc, .re, .hq, .up, .eq] s s.actOnFault := by
  unfold State.actOnFault
  split
  · intro p hp; cases p <;> first | exact absurd (by decide) hp | rfl
  · refine OnlyChanges.trans ?_ ((State.enterFence_frame _ _ _).mono (by decide))
    intro p hp; cases p <;> first | exact absurd (by decide) hp | rfl
  · split
    · intro p hp; cases p <;> first | exact absurd (by decide) hp | rfl
    · exact State.faultRollback_frame _ _
  · split
    · intro p hp; cases p <;> first | exact absurd (by decide) hp | rfl
    · exact State.faultRollback_frame _ _

theorem State.takeAssertion_frame (s : State) : OnlyChanges [.oc, .re, .hq, .up, .eq] s s.takeAssertion := by
  unfold State.takeAssertion
  split
  · intro p hp; cases p <;> first | exact absurd (by decide) hp | rfl
  · split
    · intro p hp; cases p <;> first | exact absurd (by decide) hp | rfl
    · split
      · exact State.actOnFault_frame _
      · split <;> (intro p hp; cases p <;> first | exact absurd (by decide) hp | rfl)

theorem State.failOpen_frame (s : State) (c) : OnlyChanges [.oc, .hq, .eq] s (s.failOpen c) := by
  unfold State.failOpen State.stopTimerIfEmpty; simp only; split <;>
    (intro p hp; cases p <;> first | exact absurd (by decide) hp | rfl)

theorem State.markerDurable_frame (s : State) (e) : OnlyChanges [.oc, .hq, .eq, .lc] s (s.markerDurable e) := by
  unfold State.markerDurable
  split <;> try (intro p hp; cases p <;> first | exact absurd (by decide) hp | rfl)
  unfold State.openMarkerDurable; simp only; split <;>
    (intro p hp; cases p <;> first | exact absurd (by decide) hp | rfl)

theorem State.markerFailed_frame (s : State) (e) : OnlyChanges [.oc, .hq, .eq, .lc] s (s.markerFailed e) := by
  unfold State.markerFailed
  split <;> try (intro p hp; cases p <;> first | exact absurd (by decide) hp | rfl)
  · unfold State.openMarkerFailed; simp only
    refine OnlyChanges.trans ((State.failOpen_frame s e).mono (by decide)) ?_
    split <;> (intro p hp; cases p <;> first | exact absurd (by decide) hp | rfl)
  · unfold State.abandonRotation; split <;> (intro p hp; cases p <;> first | exact absurd (by decide) hp | rfl)

theorem State.passEntry_frame (s : State) (e) : OnlyChanges [.oc, .hq, .eq, .lc, .ce] s (s.passEntry e) := by
  unfold State.passEntry; simp only
  refine OnlyChanges.trans (t := s.slotDurable e.slot) ?_ ?_
  · intro p hp; cases p <;> first | exact absurd (by decide) hp | rfl
  · split
    · intro p hp; cases p <;> first | exact absurd (by decide) hp | rfl
    · intro p hp; cases p <;> first | exact absurd (by decide) hp | rfl
    · exact (State.markerDurable_frame _ _).mono (by decide)
    · exact (State.markerFailed_frame _ _).mono (by decide)

theorem advanceOver_frame (ls) : ∀ s : State, OnlyChanges [.oc, .hq, .eq, .lc, .ce] s (advanceOver ls s) := by
  induction ls with
  | nil => exact fun s => OnlyChanges.refl _ _
  | cons e rest ih =>
    intro s; unfold advanceOver; split
    · refine OnlyChanges.trans ?_ (ih _)
      refine OnlyChanges.trans ?_ (State.passEntry_frame _ _)
      intro p hp; cases p <;> first | exact absurd (by decide) hp | rfl
    · exact OnlyChanges.refl _ _

theorem State.declareDead_frame (s : State) (f) :
    OnlyChanges [.lc, .ce, .oc, .re, .hq, .up, .eq] s (s.declareDead f) := by
  unfold State.declareDead State.endForDeadLog; simp only
  refine OnlyChanges.trans ?_ ((State.dropLatch_onlyChanges _).mono (by decide))
  refine OnlyChanges.trans ?_ ((State.enterFence_frame _ _ _).mono (by decide))
  refine OnlyChanges.trans (t := ({ s with
    lc := { s.lc with dead := true, reservations := [], writes := [] }
    ce := CaptureEngine.reset } : State).abandonEpochOp) ?_ ?_
  · refine OnlyChanges.trans ?_ ((State.abandonEpochOp_onlyChanges _).mono (by decide))
    intro p hp; cases p <;> first | exact absurd (by decide) hp | rfl
  · intro p hp; cases p <;> first | exact absurd (by decide) hp | rfl

theorem raiseDropped_frame (ls) : ∀ s : State, OnlyChanges [.eq] s (raiseDropped ls s) := by
  induction ls with
  | nil => exact fun s => OnlyChanges.refl _ _
  | cons e rest ih =>
    intro s; unfold raiseDropped
    refine OnlyChanges.trans ?_ (ih _)
    split <;> (intro p hp; cases p <;> first | exact absurd (by decide) hp | rfl)

theorem State.beginAttach_frame (s : State) (a) : OnlyChanges [.oc, .lc, .hq, .up, .eq] s (s.beginAttach a) := by
  unfold State.beginAttach; simp only
  refine OnlyChanges.trans ?_ ((raiseDropped_frame _ _).mono (by decide))
  refine OnlyChanges.trans ?_ ((State.discardHeld_onlyChanges _ _).mono (by decide))
  intro p hp; cases p <;> first | exact absurd (by decide) hp | rfl

theorem State.considerAt_frame (s : State) (e k) :
    OnlyChanges [.hq, .cf, .ce, .lc, .eq, .oc, .re] s (s.considerAt e k) := by
  have hep : ∀ u : State, OnlyChanges [.ce, .eq] u (u.beginEpisode e k) := by
    intro u; unfold State.beginEpisode; split <;> (intro p hp; cases p <;> first | exact absurd (by decide) hp | rfl)
  have hns : ∀ u : State, OnlyChanges [.hq, .cf, .ce, .lc, .eq, .oc, .re] u (u.noSlot e k) := by
    intro u; unfold State.noSlot
    split
    · refine OnlyChanges.trans ?_ ((hep _).mono (by decide))
      intro p hp; cases p <;> first | exact absurd (by decide) hp | rfl
    · refine OnlyChanges.trans ?_ ((hep _).mono (by decide))
      refine OnlyChanges.trans (t := (u.insert e.block k).breakAll .noSpace e.block) ?_ ?_
      · refine OnlyChanges.trans ?_ ((State.breakAll_onlyChanges _ _ _).mono (by decide))
        intro p hp; cases p <;> first | exact absurd (by decide) hp | rfl
      · intro p hp; cases p <;> first | exact absurd (by decide) hp | rfl
  unfold State.considerAt
  split
  · split <;> (intro p hp; cases p <;> first | exact absurd (by decide) hp | rfl)
  · split
    · split <;> (intro p hp; cases p <;> first | exact absurd (by decide) hp | rfl)
    · unfold State.needCapture
      split
      · exact hns s
      · split
        · intro p hp; cases p <;> first | exact absurd (by decide) hp | rfl
        · split
          · intro p hp; cases p <;> first | exact absurd (by decide) hp | rfl
          · split
            · intro p hp; cases p <;> first | exact absurd (by decide) hp | rfl
            · exact hns s
            · unfold State.startCapture; simp only
              refine OnlyChanges.trans ((State.reserve_frame s .capture k e.stamp).mono (by decide)) ?_
              intro p hp; cases p <;> first | exact absurd (by decide) hp | rfl

theorem State.rolledBack_frame (s : State) : OnlyChanges [.re, .oc, .eq] s s.rolledBack := by
  unfold State.rolledBack State.leaveFreeze; split
  · simp only; split <;> (intro p hp; cases p <;> first | exact absurd (by decide) hp | rfl)
  · intro p hp; cases p <;> first | exact absurd (by decide) hp | rfl

theorem State.slotDone_frame (s : State) : OnlyChanges [.re, .oc, .eq] s s.slotDone := by
  unfold State.slotDone; simp only; split <;> (intro p hp; cases p <;> first | exact absurd (by decide) hp | rfl)

theorem State.replayRecord_frame (s : State) (h p) :
    OnlyChanges [.re, .oc, .cf, .lc, .eq] s (s.replayRecord h p) := by
  unfold State.replayRecord
  split
  · intro p hp; cases p <;> first | exact absurd (by decide) hp | rfl
  · split
    · split
      · intro p hp; cases p <;> first | exact absurd (by decide) hp | rfl
      · unfold State.replayOpen
        split
        · simp only
          refine OnlyChanges.trans ((State.popLevel_onlyChanges s).mono (by decide)) ?_
          split
          · unfold State.replayEnds; simp only
            split
            · intro p hp; cases p <;> first | exact absurd (by decide) hp | rfl
            · refine OnlyChanges.trans ?_ ((State.rolledBack_frame _).mono (by decide))
              intro p hp; cases p <;> first | exact absurd (by decide) hp | rfl
          · exact (State.slotDone_frame _).mono (by decide)
        · exact (State.slotDone_frame _).mono (by decide)
      · exact (State.slotDone_frame _).mono (by decide)
    · intro p hp; cases p <;> first | exact absurd (by decide) hp | rfl

theorem State.scanEnds_frame (s : State) (h) : OnlyChanges [.re, .lc, .eq] s (s.scanEnds h) := by
  unfold State.scanEnds; simp only; split
  · intro p hp; cases p <;> first | exact absurd (by decide) hp | rfl
  · split <;> (intro p hp; cases p <;> first | exact absurd (by decide) hp | rfl)

theorem State.scanRecord_frame (s : State) (h p) : OnlyChanges [.re, .lc, .eq] s (s.scanRecord h p) := by
  unfold State.scanRecord; split
  · unfold State.scanPasses; simp only
    split
    · refine OnlyChanges.trans ?_ (State.scanEnds_frame _ _)
      intro p hp; cases p <;> first | exact absurd (by decide) hp | rfl
    · split <;> (intro p hp; cases p <;> first | exact absurd (by decide) hp | rfl)
  · exact State.scanEnds_frame _ _

theorem State.recoverySlotDone_frame (s : State) : OnlyChanges [.re, .lc, .eq] s s.recoverySlotDone := by
  unfold State.recoverySlotDone; simp only; split
  · intro p hp; cases p <;> first | exact absurd (by decide) hp | rfl
  · split <;> (intro p hp; cases p <;> first | exact absurd (by decide) hp | rfl)

theorem State.recoveryRecord_frame (s : State) (h p) : OnlyChanges [.re, .lc, .eq] s (s.recoveryRecord h p) := by
  unfold State.recoveryRecord; split
  · intro p hp; cases p <;> first | exact absurd (by decide) hp | rfl
  · split
    · split <;> (intro p hp; cases p <;> first | exact absurd (by decide) hp | rfl)
    · exact State.recoverySlotDone_frame _
    · exact State.recoverySlotDone_frame _

theorem State.anchorDone_frame (s : State) (o) : OnlyChanges [.lc, .hq, .cf, .oc, .re, .eq] s (s.anchorDone o) := by
  unfold State.anchorDone
  split
  · intro p hp; cases p <;> first | exact absurd (by decide) hp | rfl
  · intro p hp; cases p <;> first | exact absurd (by decide) hp | rfl
  · intro p hp; cases p <;> first | exact absurd (by decide) hp | rfl
  · unfold State.committed; split <;> (intro p hp; cases p <;> first | exact absurd (by decide) hp | rfl)
  · intro p hp; cases p <;> first | exact absurd (by decide) hp | rfl
  · intro p hp; cases p <;> first | exact absurd (by decide) hp | rfl
  · unfold State.rotated; split <;> (intro p hp; cases p <;> first | exact absurd (by decide) hp | rfl)
  · unfold State.rotatedFirst; split
    · intro p hp; cases p <;> first | exact absurd (by decide) hp | rfl
    · rename_i x _
      simp only
      refine OnlyChanges.trans (t := s.replaceLevelOne x.serial none) ?_ ?_
      · intro p hp; cases p <;> first | exact absurd (by decide) hp | rfl
      · refine OnlyChanges.trans ((State.reserve_frame _ .marker 1 x.serial).mono (by decide)) ?_
        intro p hp; cases p <;> first | exact absurd (by decide) hp | rfl
  · exact (State.rolledBack_frame s).mono (by decide)
  · intro p hp; cases p <;> first | exact absurd (by decide) hp | rfl
  · intro p hp; cases p <;> first | exact absurd (by decide) hp | rfl


theorem State.refuseDependents_frame (s : State) (c) : OnlyChanges [.hq, .up, .cf] s (s.refuseDependents c) := by
  unfold State.refuseDependents; simp only
  refine OnlyChanges.trans
    ((State.discardHeld_onlyChanges s fun e => decide (e.capture = .depends c.slot)).mono (by decide)) ?_
  intro p hp; cases p <;> first | exact absurd (by decide) hp | rfl

theorem State.captureFailed_frame (s : State) (i c f) :
    OnlyChanges [.ce, .lc, .hq, .up, .cf, .oc, .re, .eq] s (s.captureFailed i c f) := by
  unfold State.captureFailed; simp only
  split
  · refine OnlyChanges.trans ?_ ((State.refuseDependents_frame _ _).mono (by decide))
    intro p hp; cases p <;> first | exact absurd (by decide) hp | rfl
  · refine OnlyChanges.trans ?_ ((State.breakAll_onlyChanges _ _ _).mono (by decide))
    intro p hp; cases p <;> first | exact absurd (by decide) hp | rfl

theorem State.commitInner_frame (s : State) (k l) :
    OnlyChanges [.oc, .lc, .cf, .ce, .hq, .eq] s (s.commitInner k l) := by
  intro p hp
  cases p <;> first | (exfalso; exact hp (by decide)) | simp [Part.same, State.commitInner, State.relabelCaptures]

/-! ## Each command -/

theorem State.assertFault_frame {s t : State} (h : s.assertFault = some t) :
    OnlyChanges [.oc, .re, .hq, .up, .eq] s t := by
  unfold State.assertFault at h; split at h
  · simp at h
  · simp only at h
    split at h <;> simp only [Option.some.injEq] at h <;> subst h
    · intro p hp; cases p <;> first | exact absurd (by decide) hp | rfl
    all_goals
      refine OnlyChanges.trans ?_ (State.takeAssertion_frame _)
      intro p hp; cases p <;> first | exact absurd (by decide) hp | rfl

theorem State.deassertFault_frame {s t : State} (h : s.deassertFault = some t) :
    OnlyChanges [.oc] s t := by
  unfold State.deassertFault at h; split at h
  · simp only [Option.some.injEq] at h
    subst h
    intro p hp; cases p <;> first | exact absurd (by decide) hp | rfl
  · simp at h

theorem State.receive_frame {s t : State} {r : MemRequest} (h : s.receive r = some t) :
    OnlyChanges [.up, .hq] s t := by
  unfold State.receive at h; split at h <;> simp only [Option.some.injEq, reduceCtorEq] at h
  subst h
  refine OnlyChanges.trans ?_ (State.decideRequest_onlyChanges _ _)
  intro p hp; cases p <;> first | exact absurd (by decide) hp | rfl

theorem State.timerExpires_frame {s t : State} (h : s.timerExpires = some t) :
    OnlyChanges [.oc, .lc, .eq] s t := by
  have ht : ∀ u : State, OnlyChanges [.oc, .lc, .eq] u u.timerRotation := by
    intro u; unfold State.timerRotation; split <;> (intro p hp; cases p <;> first | exact absurd (by decide) hp | rfl)
  unfold State.timerExpires at h; split at h
  · simp only at h
    split at h
    · simp only [Option.some.injEq] at h
      subst h
      intro p hp; cases p <;> first | exact absurd (by decide) hp | rfl
    · split at h
      · simp only [Option.some.injEq] at h
        subst h
        refine OnlyChanges.trans ?_ (ht _)
        intro p hp; cases p <;> first | exact absurd (by decide) hp | rfl
      · split at h <;> simp only [Option.some.injEq] at h <;> subst h <;>
          (intro p hp; cases p <;> first | exact absurd (by decide) hp | rfl)
  · simp at h

theorem State.takePendingRotation_frame {s t : State} (h : s.takePendingRotation = some t) :
    OnlyChanges [.oc, .lc, .eq] s t := by
  have ht : ∀ u : State, OnlyChanges [.oc, .lc, .eq] u u.timerRotation := by
    intro u; unfold State.timerRotation; split <;> (intro p hp; cases p <;> first | exact absurd (by decide) hp | rfl)
  unfold State.takePendingRotation at h; split at h
  · simp only [Option.some.injEq] at h
    subst h
    refine OnlyChanges.trans ?_ (ht _)
    intro p hp; cases p <;> first | exact absurd (by decide) hp | rfl
  · simp at h

theorem State.takeLatch_frame {s t : State} (h : s.takeLatch = some t) :
    OnlyChanges [.oc, .re, .hq, .up, .eq] s t := by
  unfold State.takeLatch at h; split at h
  · split at h <;> simp only [Option.some.injEq] at h <;> subst h
    · refine OnlyChanges.trans ?_ (State.actOnFault_frame _)
      intro p hp; cases p <;> first | exact absurd (by decide) hp | rfl
    · exact (State.dropLatch_onlyChanges s).mono (by decide)
  · simp at h

theorem State.consider_frame {s t : State} (h : s.consider = some t) :
    OnlyChanges [.hq, .cf, .ce, .lc, .eq, .oc, .re] s t := by
  unfold State.consider at h; split at h
  · split at h
    · simp at h
    · split at h
      · obtain ⟨k, -, rfl⟩ := Option.map_eq_some_iff.mp h
        exact State.considerAt_frame _ _ _
      · simp at h
  · simp at h

theorem State.grant_frame {s t : State} {first : Requester} (h : s.grant first = some t) :
    OnlyChanges [.port, .fairness, .calm, .lc, .hq] s t := by
  unfold State.grant at h; split at h
  · simp at h
  · split at h
    · simp at h
    · unfold State.grantTo at h; simp only at h
      split at h
      · unfold State.grantLc at h
        split at h
        · simp only at h
          split at h
          · obtain ⟨k, -, rfl⟩ := Option.map_eq_some_iff.mp h
            intro p hp; cases p <;> first | exact absurd (by decide) hp | rfl
          · obtain ⟨k, -, rfl⟩ := Option.map_eq_some_iff.mp h
            intro p hp; cases p <;> first | exact absurd (by decide) hp | rfl
          · simp only [Option.some.injEq] at h
            subst h
            intro p hp; cases p <;> first | exact absurd (by decide) hp | rfl
        · split at h <;> simp only [Option.some.injEq, reduceCtorEq] at h <;> subst h <;>
            (intro p hp; cases p <;> first | exact absurd (by decide) hp | rfl)
      · simp only [Option.some.injEq] at h
        subst h
        unfold State.grantRe; split <;> (intro p hp; cases p <;> first | exact absurd (by decide) hp | rfl)
      · unfold State.grantCe at h; split at h
        · simp at h
        · split at h <;> simp only [Option.some.injEq, reduceCtorEq] at h <;> subst h <;>
            (intro p hp; cases p <;> first | exact absurd (by decide) hp | rfl)
      · unfold State.grantMaster at h; split at h
        · simp only [Option.some.injEq] at h
          subst h
          intro p hp; cases p <;> first | exact absurd (by decide) hp | rfl
        · split at h
          · obtain ⟨k, -, rfl⟩ := Option.map_eq_some_iff.mp h
            intro p hp; cases p <;> first | exact absurd (by decide) hp | rfl
          · simp at h

theorem State.reissue_frame {s t : State} {f : MemFailure} (h : s.reissue f = some t) :
    OnlyChanges [.port] s t := by
  unfold State.reissue at h; split at h
  · simp at h
  · split at h
    · simp only [Option.some.injEq] at h
      subst h
      intro p hp; cases p <;> first | exact absurd (by decide) hp | rfl
    · simp at h

theorem State.readEnds_frame {s t : State} {r : MemReply} (h : s.readEnds r = some t) :
    OnlyChanges [.port, .hq, .up] s t := by
  unfold State.readEnds at h; split at h <;> try (simp at h; done)
  rename_i hq; refine OnlyChanges.trans ((State.portOutcome_frame _ _ _ _ hq).mono (by decide)) ?_
  split at h <;> simp only [Option.some.injEq] at h <;> subst h <;>
    (intro p hp; cases p <;> first | exact absurd (by decide) hp | rfl)

theorem State.writeEnds_frame {s t : State} (h : s.writeEnds = some t) :
    OnlyChanges [.port, .hq, .up] s t := by
  unfold State.writeEnds at h; split at h <;> try (simp at h; done)
  rename_i hq; refine OnlyChanges.trans ((State.portOutcome_frame _ _ _ _ hq).mono (by decide)) ?_
  split at h <;> simp only [Option.some.injEq] at h <;> subst h
  · split <;> (intro p hp; cases p <;> first | exact absurd (by decide) hp | rfl)
  · intro p hp; cases p <;> first | exact absurd (by decide) hp | rfl

theorem State.writeFails_frame {s t : State} {f : MemFailure} (h : s.writeFails f = some t) :
    OnlyChanges [.port, .hq, .up, .eq] s t := by
  unfold State.writeFails at h; split at h <;> try (simp at h; done)
  rename_i hq; refine OnlyChanges.trans ((State.portOutcome_frame _ _ _ _ hq).mono (by decide)) ?_
  split at h <;> simp only [Option.some.injEq] at h <;> subst h
  · split <;> (intro p hp; cases p <;> first | exact absurd (by decide) hp | rfl)
  · intro p hp; cases p <;> first | exact absurd (by decide) hp | rfl

theorem State.captureRead_frame {s t : State} {d : BlockData} (h : s.captureRead d = some t) :
    OnlyChanges [.port, .ce] s t := by
  unfold State.captureRead at h; split at h <;> try (simp at h; done)
  rename_i hq; refine OnlyChanges.trans ((State.portOutcome_frame _ _ _ _ hq).mono (by decide)) ?_
  split at h <;> simp only [Option.some.injEq] at h <;> subst h <;>
    (intro p hp; cases p <;> first | exact absurd (by decide) hp | rfl)

theorem State.capturePayload_frame {s t : State} (h : s.capturePayload = some t) :
    OnlyChanges [.port, .ce] s t := by
  unfold State.capturePayload at h; split at h <;> try (simp at h; done)
  rename_i hq; refine OnlyChanges.trans ((State.portOutcome_frame _ _ _ _ hq).mono (by decide)) ?_
  split at h <;> simp only [Option.some.injEq] at h <;> subst h <;>
    (intro p hp; cases p <;> first | exact absurd (by decide) hp | rfl)

theorem State.captureHeader_frame {s t : State} (h : s.captureHeader = some t) :
    OnlyChanges [.port, .ce, .lc, .hq, .oc, .eq] s t := by
  unfold State.captureHeader at h; split at h <;> try (simp at h; done)
  rename_i hq; refine OnlyChanges.trans ((State.portOutcome_frame _ _ _ _ hq).mono (by decide)) ?_
  split at h <;> simp only [Option.some.injEq] at h <;> subst h
  · refine OnlyChanges.trans ?_ ((advanceOver_frame _ _).mono (by decide))
    intro p hp; cases p <;> first | exact absurd (by decide) hp | rfl
  · intro p hp; cases p <;> first | exact absurd (by decide) hp | rfl

theorem State.captureFails_frame {s t : State} {f : MemFailure} (h : s.captureFails f = some t) :
    OnlyChanges [.port, .ce, .lc, .hq, .up, .cf, .oc, .re, .eq] s t := by
  unfold State.captureFails at h; split at h <;> try (simp at h; done)
  rename_i hq; refine OnlyChanges.trans ((State.portOutcome_frame _ _ _ _ hq).mono (by decide)) ?_
  split at h
  · split at h <;> simp only [Option.some.injEq] at h <;> subst h
    · intro p hp; cases p <;> first | exact absurd (by decide) hp | rfl
    · exact (State.captureFailed_frame _ _ _ _).mono (by decide)
  · simp only [Option.some.injEq] at h
    subst h
    intro p hp; cases p <;> first | exact absurd (by decide) hp | rfl

theorem State.markerWritten_frame {s t : State} (h : s.markerWritten = some t) :
    OnlyChanges [.port, .ce, .lc, .hq, .oc, .eq] s t := by
  unfold State.markerWritten at h; split at h <;> try (simp at h; done)
  rename_i hq
  refine OnlyChanges.trans ((State.portOutcome_frame _ _ _ _ hq).mono (by decide)) ?_
  simp only [Option.some.injEq] at h
  subst h
  refine OnlyChanges.trans ?_ ((advanceOver_frame _ _).mono (by decide))
  intro p hp; cases p <;> first | exact absurd (by decide) hp | rfl

theorem State.markerWriteFails_frame {s t : State} {f : MemFailure} (h : s.markerWriteFails f = some t) :
    OnlyChanges [.port, .lc] s t := by
  unfold State.markerWriteFails at h; split at h <;> try (simp at h; done)
  rename_i hq
  refine OnlyChanges.trans ((State.portOutcome_frame _ _ _ _ hq).mono (by decide)) ?_
  simp only [Option.some.injEq] at h
  subst h
  split <;> (intro p hp; cases p <;> first | exact absurd (by decide) hp | rfl)

theorem State.voidWritten_frame {s t : State} (h : s.voidWritten = some t) :
    OnlyChanges [.port, .ce, .lc, .hq, .oc, .eq] s t := by
  unfold State.voidWritten at h; split at h <;> try (simp at h; done)
  rename_i hq
  refine OnlyChanges.trans ((State.portOutcome_frame _ _ _ _ hq).mono (by decide)) ?_
  simp only [Option.some.injEq] at h
  subst h
  refine OnlyChanges.trans ?_ ((advanceOver_frame _ _).mono (by decide))
  intro p hp; cases p <;> first | exact absurd (by decide) hp | rfl

theorem State.voidWriteFails_frame {s t : State} {f : MemFailure} (h : s.voidWriteFails f = some t) :
    OnlyChanges [.port, .ce, .lc, .hq, .up, .oc, .re, .eq] s t := by
  unfold State.voidWriteFails at h; split at h <;> try (simp at h; done)
  rename_i hq
  refine OnlyChanges.trans ((State.portOutcome_frame _ _ _ _ hq).mono (by decide)) ?_
  simp only [Option.some.injEq] at h
  subst h
  split
  · intro p hp; cases p <;> first | exact absurd (by decide) hp | rfl
  · exact (State.declareDead_frame _ _).mono (by decide)

theorem State.anchorWritten_frame {s t : State} (h : s.anchorWritten = some t) :
    OnlyChanges [.port, .ce, .lc, .hq, .cf, .oc, .re, .eq] s t := by
  unfold State.anchorWritten at h; split at h <;> try (simp at h; done)
  rename_i hq
  refine OnlyChanges.trans ((State.portOutcome_frame _ _ _ _ hq).mono (by decide)) ?_
  simp only [Option.some.injEq] at h
  subst h
  refine OnlyChanges.trans ?_ ((State.anchorDone_frame _ _).mono (by decide))
  intro p hp; cases p <;> first | exact absurd (by decide) hp | rfl

theorem State.anchorWriteFails_frame {s t : State} {f : MemFailure} (h : s.anchorWriteFails f = some t) :
    OnlyChanges [.port, .ce, .lc, .hq, .up, .oc, .re, .eq] s t := by
  unfold State.anchorWriteFails at h; split at h <;> try (simp at h; done)
  rename_i hq
  refine OnlyChanges.trans ((State.portOutcome_frame _ _ _ _ hq).mono (by decide)) ?_
  simp only [Option.some.injEq] at h
  subst h
  split
  · intro p hp; cases p <;> first | exact absurd (by decide) hp | rfl
  · split
    · intro p hp; cases p <;> first | exact absurd (by decide) hp | rfl
    · refine OnlyChanges.trans ?_ ((State.declareDead_frame _ _).mono (by decide))
      intro p hp; cases p <;> first | exact absurd (by decide) hp | rfl

theorem State.anchorRead_frame {s t : State} {r : MemReply} (h : s.anchorRead r = some t) :
    OnlyChanges [.port, .lc, .oc, .eq] s t := by
  unfold State.anchorRead at h; split at h <;> try (simp at h; done)
  all_goals
    rename_i hq; refine OnlyChanges.trans ((State.portOutcome_frame _ _ _ _ hq).mono (by decide)) ?_
    split at h <;> simp only [Option.some.injEq] at h <;> subst h <;>
      try (intro p hp; cases p <;> first | exact absurd (by decide) hp | rfl)
  unfold State.anchorsRead; split
  · intro p hp; cases p <;> first | exact absurd (by decide) hp | rfl
  · split
    · split <;> (intro p hp; cases p <;> first | exact absurd (by decide) hp | rfl)
    · intro p hp; cases p <;> first | exact absurd (by decide) hp | rfl

theorem State.tailRead_frame {s t : State} {r : MemReply} (h : s.tailRead r = some t) :
    OnlyChanges [.port, .lc, .oc, .eq] s t := by
  have ht : ∀ (u : State) h p, OnlyChanges [.lc, .oc, .eq] u (u.tailTest h p) := by
    intro u h p; unfold State.tailTest; simp only; split <;>
      (intro p hp; cases p <;> first | exact absurd (by decide) hp | rfl)
  unfold State.tailRead at h; split at h <;> try (simp at h; done)
  all_goals
    rename_i hq; refine OnlyChanges.trans ((State.portOutcome_frame _ _ _ _ hq).mono (by decide)) ?_
    split at h <;> try (split at h)
    all_goals
      simp only [Option.some.injEq] at h
      subst h
      first | (intro p hp; cases p <;> first | exact absurd (by decide) hp | rfl) | exact (ht _ _ _).mono (by decide)

theorem State.replayRead_frame {s t : State} {r : MemReply} (h : s.replayRead r = some t) :
    OnlyChanges [.port, .re, .oc, .cf, .lc, .eq] s t := by
  unfold State.replayRead at h; split at h <;> try (simp at h; done)
  split at h <;> try (simp at h; done)
  rename_i hq; refine OnlyChanges.trans ((State.portOutcome_frame _ _ _ _ hq).mono (by decide)) ?_
  split at h <;> try (split at h)
  all_goals
    simp only [Option.some.injEq, reduceCtorEq] at h
    try subst h
  all_goals
    first
      | exact (State.replayRecord_frame _ _ _).mono (by decide)
      | (intro p hp; cases p <;> first | exact absurd (by decide) hp | rfl)

theorem State.restoreEnds_frame {s t : State} {r : MemReply} (h : s.restoreEnds r = some t) :
    OnlyChanges [.port, .re, .oc, .eq] s t := by
  unfold State.restoreEnds at h; split at h <;> try (simp at h; done)
  split at h <;> try (simp at h; done)
  rename_i hq; refine OnlyChanges.trans ((State.portOutcome_frame _ _ _ _ hq).mono (by decide)) ?_
  split at h
  all_goals
    simp only [Option.some.injEq, reduceCtorEq] at h
    try subst h
  · refine OnlyChanges.trans ?_ ((State.slotDone_frame _).mono (by decide))
    intro p hp; cases p <;> first | exact absurd (by decide) hp | rfl
  · intro p hp; cases p <;> first | exact absurd (by decide) hp | rfl

theorem State.scanRead_frame {s t : State} {r : MemReply} (h : s.scanRead r = some t) :
    OnlyChanges [.port, .re, .lc, .eq] s t := by
  unfold State.scanRead at h; split at h <;> try (simp at h; done)
  split at h <;> try (simp at h; done)
  rename_i hq; refine OnlyChanges.trans ((State.portOutcome_frame _ _ _ _ hq).mono (by decide)) ?_
  split at h <;> try (split at h)
  all_goals
    simp only [Option.some.injEq, reduceCtorEq] at h
    try subst h
  all_goals
    first
      | exact (State.scanRecord_frame _ _ _).mono (by decide)
      | (intro p hp; cases p <;> first | exact absurd (by decide) hp | rfl)

theorem State.recoveryRead_frame {s t : State} {r : MemReply} (h : s.recoveryRead r = some t) :
    OnlyChanges [.port, .re, .lc, .eq] s t := by
  unfold State.recoveryRead at h; split at h <;> try (simp at h; done)
  split at h <;> try (simp at h; done)
  rename_i hq; refine OnlyChanges.trans ((State.portOutcome_frame _ _ _ _ hq).mono (by decide)) ?_
  split at h <;> try (split at h)
  all_goals
    simp only [Option.some.injEq, reduceCtorEq] at h
    try subst h
  all_goals
    first
      | exact (State.recoveryRecord_frame _ _ _).mono (by decide)
      | (intro p hp; cases p <;> first | exact absurd (by decide) hp | rfl)

theorem State.recoveryRestoreEnds_frame {s t : State} {r : MemReply} (h : s.recoveryRestoreEnds r = some t) :
    OnlyChanges [.port, .re, .lc, .eq] s t := by
  unfold State.recoveryRestoreEnds at h; split at h <;> try (simp at h; done)
  split at h <;> try (simp at h; done)
  rename_i hq; refine OnlyChanges.trans ((State.portOutcome_frame _ _ _ _ hq).mono (by decide)) ?_
  split at h
  all_goals
    simp only [Option.some.injEq, reduceCtorEq] at h
    try subst h
  · refine OnlyChanges.trans ?_ ((State.recoverySlotDone_frame _).mono (by decide))
    intro p hp; cases p <;> first | exact absurd (by decide) hp | rfl
  · intro p hp; cases p <;> first | exact absurd (by decide) hp | rfl

theorem State.drainEnds_frame {s t : State} (h : s.drainEnds = some t) :
    OnlyChanges [.oc, .lc] s t := by
  unfold State.drainEnds at h; split at h <;> try (simp at h; done)
  split at h <;> simp only [Option.some.injEq, reduceCtorEq] at h
  subst h
  intro p hp; cases p <;> first | exact absurd (by decide) hp | rfl

theorem State.orderingEnds_frame {s t : State} (h : s.orderingEnds = some t) :
    OnlyChanges [.oc, .re, .lc, .hq, .up, .eq] s t := by
  unfold State.orderingEnds at h; split at h <;> try (simp at h; done)
  split at h <;> simp only [Option.some.injEq] at h <;> subst h
  · unfold State.endForDeadLog; simp only
    refine OnlyChanges.trans ?_ ((State.enterFence_frame _ _ _).mono (by decide))
    refine OnlyChanges.trans ((State.abandonEpochOp_onlyChanges s).mono (by decide)) ?_
    intro p hp; cases p <;> first | exact absurd (by decide) hp | rfl
  · refine OnlyChanges.trans ((State.failOpen_frame s .noSpace).mono (by decide)) ?_
    intro p hp; cases p <;> first | exact absurd (by decide) hp | rfl
  · refine OnlyChanges.trans ((State.reserve_frame s .marker s.oc.depth s.oc.innermost).mono (by decide)) ?_
    intro p hp; cases p <;> first | exact absurd (by decide) hp | rfl

theorem State.commitWaitEnds_frame {s t : State} (h : s.commitWaitEnds = some t) :
    OnlyChanges [.oc, .lc] s t := by
  unfold State.commitWaitEnds at h; split at h <;> simp only [Option.some.injEq, reduceCtorEq] at h
  subst h
  intro p hp; cases p <;> first | exact absurd (by decide) hp | rfl

theorem State.rotateWaitEnds_frame {s t : State} (h : s.rotateWaitEnds = some t) :
    OnlyChanges [.oc, .lc, .eq] s t := by
  unfold State.rotateWaitEnds at h; split at h <;> try (simp at h; done)
  simp only at h
  split at h <;> try (simp at h; done)
  rename_i x _
  split at h <;> simp only [Option.some.injEq] at h <;> subst h
  · have hr := State.reserve_frame s.setBar .marker 1 x.serial
    refine OnlyChanges.trans ?_ (OnlyChanges.trans (hr.mono (by decide)) ?_) <;>
      (intro p hp; cases p <;> first | exact absurd (by decide) hp | rfl)
  · intro p hp; cases p <;> first | exact absurd (by decide) hp | rfl

theorem State.settle_frame {s t : State} (h : s.settle = some t) :
    OnlyChanges [.re, .oc, .eq] s t := by
  unfold State.settle at h; split at h <;> try (simp at h; done)
  simp only at h
  split at h
  · simp only [Option.some.injEq] at h
    subst h
    intro p hp; cases p <;> first | exact absurd (by decide) hp | rfl
  · split at h <;> simp only [Option.some.injEq] at h <;> subst h <;>
      (intro p hp; cases p <;> first | exact absurd (by decide) hp | rfl)

theorem State.detachCompletes_frame {s t : State} (h : s.detachCompletes = some t) :
    OnlyChanges [.oc, .re, .hq, .up, .cf, .ce, .lc, .eq] s t := by
  unfold State.detachCompletes at h; split at h <;> simp only [Option.some.injEq, reduceCtorEq] at h
  subst h
  refine OnlyChanges.trans ((State.discardHeld_onlyChanges s (·.isTrack)).mono (by decide)) ?_
  refine OnlyChanges.trans (t := { s.discardHeld (·.isTrack) with
    cf := [], ce := CaptureEngine.reset, lc := LogState.reset, re := RestoreEngine.reset
    oc := { Controller.reset with latch := s.oc.latch, faultLine := s.oc.faultLine } }) ?_ ?_
  · intro p hp; cases p <;> first | exact absurd (by decide) hp | rfl
  · refine OnlyChanges.trans ((State.dropLatch_onlyChanges _).mono (by decide)) ?_
    intro p hp; cases p <;> first | exact absurd (by decide) hp | rfl

theorem State.attach_frame {s t : State} {a : Byte} (h : (s.attach a).leaves t) :
    OnlyChanges [.oc, .lc, .hq, .up, .eq] s t := by
  unfold State.attach at h; split at h <;> try simp only [Reply.leaves_refuse] at h
  split at h <;> simp only [Reply.leaves_refuse, Reply.leaves_done] at h
  subst h; exact State.beginAttach_frame _ _

theorem State.recover_frame {s t : State} (h : (s.recover).leaves t) :
    OnlyChanges [.oc, .re] s t := by
  unfold State.recover at h; split at h <;> simp only [Reply.leaves_refuse, Reply.leaves_done] at h
  subst h
  intro p hp; cases p <;> first | exact absurd (by decide) hp | rfl

theorem State.detach_frame {s t : State} (h : (s.detach).leaves t) :
    OnlyChanges [.oc, .lc] s t := by
  unfold State.detach at h; split at h <;> simp only [Reply.leaves_refuse, Reply.leaves_done] at h
  subst h
  intro p hp; cases p <;> first | exact absurd (by decide) hp | rfl

theorem State.openEpoch_frame {s t : State} (h : (s.openEpoch).leaves t) :
    OnlyChanges [.oc, .lc] s t := by
  unfold State.openEpoch at h; split at h <;> try simp only [Reply.leaves_refuse] at h
  split at h <;> simp only [Reply.leaves_refuse, Reply.leaves_done] at h
  subst h
  intro p hp; cases p <;> first | exact absurd (by decide) hp | rfl

theorem State.commit_frame {s t : State} (h : (s.commit).leaves t) :
    OnlyChanges [.oc, .lc, .cf, .ce, .hq, .eq] s t := by
  unfold State.commit at h; split at h <;> try simp only [Reply.leaves_refuse] at h
  split at h <;> try simp only [Reply.leaves_refuse] at h
  split at h <;> simp only [Reply.leaves_done] at h <;> subst h
  · exact State.commitInner_frame _ _ _
  · intro p hp; cases p <;> first | exact absurd (by decide) hp | rfl

theorem State.rotate_frame {s t : State} (h : (s.rotate).leaves t) :
    OnlyChanges [.oc, .lc] s t := by
  unfold State.rotate at h; split at h <;> try simp only [Reply.leaves_refuse] at h
  split at h <;> simp only [Reply.leaves_refuse, Reply.leaves_done] at h
  subst h
  intro p hp; cases p <;> first | exact absurd (by decide) hp | rfl

theorem State.rollback_frame {s t : State} {j : Byte} (h : (s.rollback j).leaves t) :
    OnlyChanges [.oc, .re, .hq, .up] s t := by
  unfold State.rollback at h; split at h <;> simp only [Reply.leaves_refuse, Reply.leaves_done] at h
  subst h; exact (State.acceptRollback_frame _ _ _).mono (by decide)

theorem State.abort_frame {s t : State} (h : (s.abort).leaves t) :
    OnlyChanges [.re] s t := by
  unfold State.abort at h; split at h <;> try simp only [Reply.leaves_refuse] at h
  split at h <;> simp only [Reply.leaves_refuse, Reply.leaves_done] at h
  subst h
  intro p hp; cases p <;> first | exact absurd (by decide) hp | rfl

theorem State.resume_frame {s t : State} (h : (s.resume).leaves t) :
    OnlyChanges [.oc, .re] s t := by
  unfold State.resume at h; split at h <;> try simp only [Reply.leaves_refuse] at h
  split at h <;> simp only [Reply.leaves_done] at h <;> subst h <;>
    (intro p hp; cases p <;> first | exact absurd (by decide) hp | rfl)

theorem State.discard_frame {s t : State} (h : (s.discard).leaves t) :
    OnlyChanges [.oc, .re, .cf, .lc, .eq] s t := by
  unfold State.discard at h; split at h <;> try simp only [Reply.leaves_refuse] at h
  split at h <;> try simp only [Reply.leaves_refuse] at h
  have hl : OnlyChanges [.oc, .re, .cf, .eq] s s.discardLevels := by
    unfold State.discardLevels; simp only
    refine OnlyChanges.trans ((State.popLevels_onlyChanges s.discardPops s).mono (by decide)) ?_
    refine OnlyChanges.trans ((State.breakAll_onlyChanges _ s.re.haltCondition 0).mono (by decide)) ?_
    intro p hp; cases p <;> first | exact absurd (by decide) hp | rfl
  refine OnlyChanges.trans (hl.mono (by decide)) ?_
  split at h <;> simp only [Reply.leaves_done] at h <;> subst h <;>
    (intro p hp; cases p <;> first | exact absurd (by decide) hp | rfl)

theorem State.thaw_frame {s t : State} (h : (s.thaw).leaves t) :
    OnlyChanges [.oc] s t := by
  unfold State.thaw at h; split at h <;> try simp only [Reply.leaves_refuse] at h
  split at h <;> simp only [Reply.leaves_refuse, Reply.leaves_done] at h
  subst h; split <;> (intro p hp; cases p <;> first | exact absurd (by decide) hp | rfl)

theorem State.readEvent_frame {s t : State} (h : (s.readEvent).leaves t) :
    OnlyChanges [.eq] s t := by 
  unfold State.readEvent at h; split at h <;> simp only [Reply.leaves_refuse, Reply.leaves_done] at h
  subst h
  intro p hp; cases p <;> first | exact absurd (by decide) hp | rfl

theorem State.readLevel_frame {s t : State} {k : Byte} (h : (s.readLevel k).leaves t) :
    OnlyChanges [] s t := by
  unfold State.readLevel at h; split at h <;> simp only [Reply.leaves_refuse, Reply.leaves_done] at h
  subst h
  intro p hp; cases p <;> first | exact absurd (by decide) hp | rfl

theorem State.setwin_frame {s t : State} {i : Byte} {b l : Word32} {m : Byte} (h : (s.setwin i b l m).leaves t) :
    OnlyChanges [.windows] s t := by
  unfold State.setwin at h; split at h <;> try simp only [Reply.leaves_refuse] at h
  split at h <;> simp only [Reply.leaves_refuse, Reply.leaves_done] at h
  subst h
  intro p hp; cases p <;> first | exact absurd (by decide) hp | rfl

theorem State.clrwin_frame {s t : State} {i : Byte} (h : (s.clrwin i).leaves t) :
    OnlyChanges [.windows] s t := by
  unfold State.clrwin at h; split at h <;> simp only [Reply.leaves_refuse, Reply.leaves_done] at h
  subst h
  intro p hp; cases p <;> first | exact absurd (by decide) hp | rfl

theorem State.setlog_frame {s t : State} {b n : Word32} (h : (s.setlog b n).leaves t) :
    OnlyChanges [.log, .lc] s t := by
  unfold State.setlog at h; split at h <;> simp only [Reply.leaves_refuse, Reply.leaves_done] at h
  subst h
  intro p hp; cases p <;> first | exact absurd (by decide) hp | rfl

theorem State.setWriteMode_frame {s t : State} {v : Word32} (h : (s.setWriteMode v).leaves t) :
    OnlyChanges [.opts] s t := by
  unfold State.setWriteMode State.setOption at h
  split at h <;> simp only [Reply.leaves_refuse, Reply.leaves_done] at h
  subst h
  intro p hp; cases p <;> first | exact absurd (by decide) hp | rfl

theorem State.setRetryLimit_frame {s t : State} {v : Word32} (h : (s.setRetryLimit v).leaves t) :
    OnlyChanges [.opts] s t := by
  unfold State.setRetryLimit State.setOption at h
  split at h <;> simp only [Reply.leaves_refuse, Reply.leaves_done] at h
  subst h
  intro p hp; cases p <;> first | exact absurd (by decide) hp | rfl

theorem State.setLogFull_frame {s t : State} {v : Word32} (h : (s.setLogFull v).leaves t) :
    OnlyChanges [.opts] s t := by
  unfold State.setLogFull State.setOption at h; split at h <;> simp only [Reply.leaves_refuse, Reply.leaves_done] at h
  subst h
  intro p hp; cases p <;> first | exact absurd (by decide) hp | rfl

theorem State.setHighWater_frame {s t : State} {v : Word32} (h : (s.setHighWater v).leaves t) :
    OnlyChanges [.opts, .lc] s t := by
  unfold State.setHighWater State.setOption at h
  split at h <;> simp only [Reply.leaves_refuse, Reply.leaves_done] at h
  subst h
  intro p hp; cases p <;> first | exact absurd (by decide) hp | rfl

theorem State.setFaultPolicy_frame {s t : State} {v : Word32} (h : (s.setFaultPolicy v).leaves t) :
    OnlyChanges [.opts] s t := by
  unfold State.setFaultPolicy State.setOption at h
  split at h <;> simp only [Reply.leaves_refuse, Reply.leaves_done] at h
  subst h
  intro p hp; cases p <;> first | exact absurd (by decide) hp | rfl

theorem State.setRotationPeriod_frame {s t : State} {v : Word32} (h : (s.setRotationPeriod v).leaves t) :
    OnlyChanges [.opts] s t := by
  unfold State.setRotationPeriod State.setOption at h
  split at h <;> simp only [Reply.leaves_refuse, Reply.leaves_done] at h
  subst h
  intro p hp; cases p <;> first | exact absurd (by decide) hp | rfl

theorem State.unknownOption_frame {s t : State} (h : (s.unknownOption).leaves t) :
    OnlyChanges [] s t := by
  unfold State.unknownOption State.setOption at h
  split at h <;> simp only [Reply.leaves_refuse, Reply.leaves_done] at h
  subst h
  intro p hp; cases p <;> first | exact absurd (by decide) hp | rfl

/-- A command's own effect changes nothing outside its footprint. -/
theorem Does.frame {c : Instr} {s t : State} (h : Does c s t) : OnlyChanges (footprint c) s t := by
  cases c
  case pinReset =>
    simp only [Does] at h
    subst h
    simp only [footprint]
    intro p hp; cases p <;> first | exact absurd (by decide) hp | rfl
  case resetnRelease =>
    simp only [Does] at h
    subst h
    simp only [footprint]
    intro p hp; cases p <;> first | exact absurd (by decide) hp | rfl
  case status =>
    simp only [Does] at h
    subst h
    simp only [footprint]
    intro p hp; cases p <;> first | exact absurd (by decide) hp | rfl
  case responseToAbandonedRequest | frameBegin | frameError | nop =>
    simp only [Does] at h
    subst h
    exact OnlyChanges.refl _ _
  case faultAssertion => exact State.assertFault_frame h
  case faultDeassertion => exact State.deassertFault_frame h
  case upstreamRequest => exact State.receive_frame h
  case rotationTimerExpiry => exact State.timerExpires_frame h
  case pendingRotationTaken => exact State.takePendingRotation_frame h
  case faultLatchTaken => exact State.takeLatch_frame h
  case consideration => exact State.consider_frame h
  case downstreamGrant => exact State.grant_frame h
  case downstreamReissue => exact State.reissue_frame h
  case masterReadComplete => exact State.readEnds_frame h
  case masterWriteComplete => exact State.writeEnds_frame h
  case masterWriteFailed => exact State.writeFails_frame h
  case captureReadComplete => exact State.captureRead_frame h
  case capturePayloadWriteComplete => exact State.capturePayload_frame h
  case captureHeaderWriteComplete => exact State.captureHeader_frame h
  case captureRequestFailed => exact State.captureFails_frame h
  case markerWriteComplete => exact State.markerWritten_frame h
  case markerWriteFailed => exact State.markerWriteFails_frame h
  case voidWriteComplete => exact State.voidWritten_frame h
  case voidWriteFailed => exact State.voidWriteFails_frame h
  case anchorWriteComplete => exact State.anchorWritten_frame h
  case anchorWriteFailed => exact State.anchorWriteFails_frame h
  case anchorReadComplete => exact State.anchorRead_frame h
  case tailReadComplete => exact State.tailRead_frame h
  case replayReadComplete => exact State.replayRead_frame h
  case restoreWriteComplete => exact State.restoreEnds_frame h
  case scanReadComplete => exact State.scanRead_frame h
  case recoveryReadComplete => exact State.recoveryRead_frame h
  case recoveryRestoreComplete => exact State.recoveryRestoreEnds_frame h
  case attachDrainEnd => exact State.drainEnds_frame h
  case orderingWaitEnd => exact State.orderingEnds_frame h
  case commitWaitEnd => exact State.commitWaitEnds_frame h
  case rotateWaitEnd => exact State.rotateWaitEnds_frame h
  case settlingEnd => exact State.settle_frame h
  case detachComplete => exact State.detachCompletes_frame h
  case attachKeep => exact State.attach_frame h
  case attachFormat => exact State.attach_frame h
  case recover => exact State.recover_frame h
  case detach => exact State.detach_frame h
  case openEpoch => exact State.openEpoch_frame h
  case commit => exact State.commit_frame h
  case rotate => exact State.rotate_frame h
  case rollback => exact State.rollback_frame h
  case abort => exact State.abort_frame h
  case resume => exact State.resume_frame h
  case discard => exact State.discard_frame h
  case thaw => exact State.thaw_frame h
  case event => exact State.readEvent_frame h
  case level => exact State.readLevel_frame h
  case setwin => exact State.setwin_frame h
  case clrwin => exact State.clrwin_frame h
  case setlog => exact State.setlog_frame h
  case setoptWriteMode => exact State.setWriteMode_frame h
  case setoptRetryLimit => exact State.setRetryLimit_frame h
  case setoptLogFullPolicy => exact State.setLogFull_frame h
  case setoptHighWaterMark => exact State.setHighWater_frame h
  case setoptFaultPolicy => exact State.setFaultPolicy_frame h
  case setoptRotationPeriod => exact State.setRotationPeriod_frame h
  case setoptUnknownOption => exact State.unknownOption_frame h

end Sys2Proof.Machine
end

