-- ==== Sys2Proof/Tests/Slice0.lean ====
section
/-! SUPPORT. Tests: ill-formed terms, frames and records written out byte by byte, the spec's own examples one step at a
time, and for each obligation a state and operands that meet its hypotheses (`witness_<Name>`), at the bounds of their
ranges. -/

namespace Sys2Proof.Tests

open Sys2Proof Sys2Proof.Machine

set_option Elab.async false

/-! ## Small states -/

/-- A frame is in progress. -/
def inFrame (s : State) : State := { s with link := { s.link with frame := some s.link.result, csLow := true } }

/-- The downstream port carries `o`'s request, with these failures so far. -/
def carrying (s : State) (o : Owner) (failures limit : Nat) : State :=
  { s with dp := { s.dp with port := some { owner := o, request := .readBlock 0, failures, limit, last := none } } }

/-- A level that stands on the stack with its marker durable. -/
def levelAt (serial : Word32) (start : Nat) : Level :=
  { serial, start := some start, durable := true, broken := false, captures := 0 }

/-- Window 0 of section 1.3's setting example, and seven windows that are not in use. -/
def oneWindow : List Window :=
  { valid := true, base := 0x00100000#32, limit := 0x00180000#33, mode := .track } :: List.replicate 7 Window.reset

/-- Level 1 with serial 5 of section 2.8's example. -/
def level1 : Level := levelAt 5 10

/-- The ring of section 2.8's example: level 1's marker in slot 10. -/
def ring : LogState :=
  { LogState.reset with
    tail := 10, tailSequence := 50, head := 11, live := 1, durable := 1, nextSequence := 51, session := 3, nextSerial := 6
    copyA := { standing := .valid, generation := 7 }, copyB := { standing := .valid, generation := 8 } }

/-- The part in this mode and operation state over that ring of 64 slots at 00200000H, with this stack. -/
def atWork (mode : Mode) (op : OpState) (stack : List Level) : State :=
  { State.reset with
    windows := oneWindow
    log := { base := 0x00200000#32, slots := 64 }
    lc := ring
    oc := { Controller.reset with mode, op, stack, stamp := (stack.getLast?.map Level.serial).getD 0 } }

/-- ONLINE at IDLE. -/
def online (stack : List Level) : State := atWork .online .idle stack

/-- A held write of a block. -/
def entry (order : Nat) (addr : Addr) (cls : RequestClass) (stamp : Word32) (capture : CaptureState)
    (acknowledged issued : Bool) : HoldEntry :=
  { order, addr, body := .block 0, block := addr, cls, stamp, capture, acknowledged, issued }

/-- These entries in the hold queue. -/
def holding (s : State) (entries : List HoldEntry) : State := { s with hq := { s.hq with entries, nextOrder := 40 } }

/-- A reservation of level 1. -/
def reserved (slot : Nat) (sequence : Word32) (purpose : Purpose) (state : ReservationState)
    (failure : Option MemFailure) : Reservation :=
  { slot, sequence, purpose, level := 1, serial := 5, state, failure }

/-- A context on a block at level 1. -/
def context (block : Addr) (slot : Nat) (state : ContextState) : Context :=
  { block, slot, level := 1, serial := 5, trigger := 30, state, failure := none, bytes := 0 }

/-- An event record of no interest. -/
def record : EventRecord := { kind := .opened, level := 1, condition := .none, serial := 5, argument := 10 }

/-- The state a command leaves. -/
def after (c : Instr) (s : State) : State :=
  match exec c s with
  | .next t => t
  | .fault _ => s
  | .refused _ => s

/-- The port's request ends with this response, as a Bool. -/
def endsNow (s : State) (o : Owner) (r : MemReply) : Bool :=
  match s.dp.port with
  | none => false
  | some a =>
    decide (a.owner = o) &&
      match r with
      | .okay _ => true
      | .failed _ => decide (a.limit ≤ a.failures + 1)

theorem endsWith_iff (s : State) (o : Owner) (r : MemReply) : s.endsWith o r ↔ endsNow s o r = true := by
  unfold State.endsWith endsNow
  cases s.dp.port <;> cases r <;> simp

/-! ## Ill-formed terms -/

theorem test_wellFormed_frameError_of_nop : WellFormed (.frameError [0x00]) = false := by decide
theorem test_wellFormed_frameError_bad : WellFormed (.frameError [0x7F]) = true := by decide
theorem test_wellFormed_attachKeep_format : WellFormed (.attachKeep 0x01) = false := by decide
theorem test_wellFormed_setoptUnknown_writeMode : WellFormed (.setoptUnknownOption 1 0) = false := by decide
theorem test_wellFormed_setoptUnknown_period : WellFormed (.setoptUnknownOption 6 0) = false := by decide
theorem test_wellFormed_setoptUnknown_seven : WellFormed (.setoptUnknownOption 7 0) = true := by decide

/-! ## Frames (12.3) -/

theorem test_frame_setwin :
    decodeFrame [0x10, 0x07, 0xFF, 0xFF, 0xF0, 0x00, 0x00, 0x00, 0x00, 0x00, 0x00] =
      .taken (.setwin 7 0xFFFFF000#32 0 0x00) := by decide
theorem test_frame_setwin_short : decodeFrame [0x10, 0x07, 0xFF, 0xFF, 0xF0, 0x00, 0x00, 0x00, 0x00, 0x00] = .bad := by
  decide
theorem test_frame_setopt_retry : decodeFrame [0x13, 0x02, 0x00, 0x00, 0x00, 0x0F] = .taken (.setoptRetryLimit 15) := by
  decide
theorem test_frame_attach_keep : decodeFrame [0x20, 0x00] = .taken (.attachKeep 0) := by decide
theorem test_frame_thaw : decodeFrame [0x37] = .taken .thaw := by decide
theorem test_tableWord_none : decodeTableWord 8 0x30 = none := by decide

/-! ## Records (12.1, 12.2, 12.4) -/

/-- The bits of an ASCII string's characters, each least significant first. -/
def stringBits (codes : List Byte) : List Bool := codes.flatMap fun c => (List.range 8).map c.getLsbD

/-- The check value of CRC-32 over the digits 1 to 9. -/
theorem test_crc32_check :
    crc32 (stringBits [0x31, 0x32, 0x33, 0x34, 0x35, 0x36, 0x37, 0x38, 0x39]) = 0xCBF43926#32 := by decide +kernel

/-- The header of 12.4's example. -/
def exampleHeader : RecordHeader :=
  { kind := .undo, level := 2, session := 4, sequence := 0x65, serial := 7, blockAddr := 0x00100040#32 }

set_option maxRecDepth 40000 in
/-- Its first 24 bytes, as the table of 12.4 lists them in ascending order. -/
theorem test_header_bytes :
    (List.range 24).map (fun i => (exampleHeader.encodeUndo 0).extractLsb' (8 * i) 8) =
      [0xE1, 0x96, 0x5A, 0x3C, 0x01, 0x02, 0x01, 0x00, 0x04, 0x00, 0x00, 0x00, 0x65, 0x00, 0x00, 0x00,
       0x07, 0x00, 0x00, 0x00, 0x40, 0x00, 0x10, 0x00] := by decide +kernel

theorem test_slot21_addresses :
    (atWork .online .idle []).log.headerAddr 21 = 0x00200B00#32
      ∧ (atWork .online .idle []).log.payloadAddr 21 = 0x00200B40#32 := by decide

set_option maxRecDepth 40000 in
/-- The record passes the ring test at its slot, and with another payload it does not. -/
theorem test_ringTest_undo :
    let lc := { ring with session := 4, tail := 16, tailSequence := 0x60 }
    ringTest lc 64 21 (exampleHeader.encodeUndo 9) 9 = .passes .undo
      ∧ ringTest lc 64 21 (exampleHeader.encodeUndo 9) 8 = .fails .badCheck
      ∧ ringTest { lc with session := 5 } 64 21 (exampleHeader.encodeUndo 9) 9 = .fails .badSession
      ∧ ringTest { lc with tailSequence := 0x5F } 64 21 (exampleHeader.encodeUndo 9) 9 = .fails .badSequence
      ∧ ringTest lc 64 21 0 9 = .fails .badSignature := by decide +kernel

/-- Anchor A of 8.6's example reads back. -/
def anchorA : Anchor :=
  { generation := 11, session := 3, slots := 64, tail := 40, tailSequence := 300, nextSerial := 15 }

/-- Anchor B of 8.6's example. -/
def anchorB : Anchor :=
  { generation := 10, session := 3, slots := 64, tail := 30, tailSequence := 290, nextSerial := 14 }

set_option maxRecDepth 40000 in
theorem test_anchor_reads_back :
    readAnchor 64 anchorA.encode = some anchorA ∧ readAnchor 128 anchorA.encode = none ∧ readAnchor 64 0 = none := by
  decide +kernel

theorem test_anchor_newer : selectAnchor (some anchorA) (some anchorB) = some anchorA := by decide

/-! ## The spec's examples, one step each -/

/-- A pin reset in mid-frame: CS stays low and SDO is driven with bytes no rule gives, no frame is taken at its rise,
and after the release the next fall begins one (R175). -/
theorem test_reset_in_frame :
    let low := after .pinReset (inFrame (online [level1]))
    low.link.frame = none ∧ low.sdo 3 = some (Config.unframedByte 0 3)
      ∧ (after .nop low).link = { State.reset.link with unframed := 1 } ∧ (after .nop low).sdo 3 = none
      ∧ (after .frameBegin (after (.resetnRelease false) low)).link.frame = none
      ∧ (after .frameBegin (after .nop (after (.resetnRelease false) low))).sdo 0 = some 0 :=
  ⟨rfl, rfl, rfl, rfl, rfl, rfl⟩

/-- The windows and the log of section 1.3's setting example, after its first three commands. -/
def settings : State :=
  inFrame (after (.setlog 0x00200000#32 4096)
    (inFrame (after (.setwin 1 0x00300000#32 0x00310000#32 0x00)
      (inFrame (after (.setwin 0 0x00100000#32 0x00180000#32 0x01) (inFrame State.reset))))))

theorem test_settings_checked :
    settings.log.areaEnd = 0x00280080
      ∧ (after (.setwin 2 0x00280000#32 0x00290000#32 0x01) settings).link.result.code = .arg
      ∧ (after (.setwin 2 0x00281000#32 0x00290000#32 0x01) settings).link.result.code = .ok
      ∧ (after (.setwin 3 0x0030F000#32 0x00320000#32 0x01) settings).link.result.code = .arg := by decide

theorem test_settings_classes :
    let s := after (.setwin 2 0x00281000#32 0x00290000#32 0x01) settings
    s.classify (.readWord 0x00100008#32) = .track ∧ s.classify (.writeBlock 0x0017FFC0#32 0) = .track
      ∧ s.classify (.writeBlock 0x00180000#32 0) = .pass ∧ s.classify (.writeWord 0x00200040#32 0x0F 0) = .log
      ∧ s.classify (.readBlock 0x00280040#32) = .log ∧ s.classify (.readBlock 0x00280080#32) = .pass
      ∧ s.classify (.writeWord 0x00300010#32 0 0) = .bad ∧ s.classify (.readBlock 0x00281020#32) = .bad := by decide

/-- The filter of section 4.7's example: A to E in set 0, the two evictions, the relabel, and the lost entry. -/
theorem test_filter_example :
    let start : List FilterEntry :=
      [{ block := 0x00100000#32, level := 1, way := 0 }, { block := 0x00104000#32, level := 1, way := 1 },
       { block := 0x00108000#32, level := 2, way := 2 }]
    let four := filterInsert (filterInsert (filterInsert start 0x0010C000#32 2) 0x00110000#32 2) 0x00100000#32 2
    four =
      [{ block := 0x00108000#32, level := 2, way := 2 }, { block := 0x0010C000#32, level := 2, way := 3 },
       { block := 0x00110000#32, level := 2, way := 0 }, { block := 0x00100000#32, level := 2, way := 1 }]
    ∧ filterInsert (filterRelabel four 2) 0x00104000#32 1 =
      [{ block := 0x0010C000#32, level := 1, way := 3 }, { block := 0x00110000#32, level := 1, way := 0 },
       { block := 0x00100000#32, level := 1, way := 1 }, { block := 0x00104000#32, level := 1, way := 2 }] := by decide

/-- Section 2.8: with slot 12's header written first, slot 11's takes the mark past both. -/
theorem test_mark_passes_two :
    let s := { online [level1] with
      lc := { ring with
        head := 14, live := 4, nextSequence := 54
        reservations := [reserved 11 51 .capture .pending none, reserved 12 52 .capture .written none,
                         reserved 13 53 .capture .pending none] }
      ce := { CaptureEngine.reset with
        contexts := [some (context 0x00100040#32 11 .writingHeader), some (context 0x00100080#32 12 .written),
                     some (context 0x001000C0#32 13 .reading), none] } }
    let t := after .captureHeaderWriteComplete (carrying s (.ce 0 .header) 0 4)
    t.lc.durable = 3 ∧ t.lc.reservations = [reserved 13 53 .capture .pending none]
      ∧ t.ce.contexts.map Option.isSome = [false, false, true, false]
      ∧ t.oc.stack.map Level.captures = [2] := by decide

/-- Section 9.5: after BUSY and DERR, the limit being 3, another DERR fails the read with MEM_ERROR. -/
theorem test_capture_read_fails :
    let s := { online [level1] with
      lc := { ring with head := 12, live := 2, nextSequence := 52, reservations := [reserved 11 51 .capture .pending none] }
      ce := { CaptureEngine.reset with contexts := [none, none, some (context 0x00100040#32 11 .reading), none] } }
    (after (.downstreamReissue .derr) (carrying s (.ce 2 .read) 1 3)).dp.port.map ActiveRequest.failures = some 2
      ∧ after (.downstreamReissue .derr) (carrying s (.ce 2 .read) 2 3) = carrying s (.ce 2 .read) 2 3
      ∧ (after (.captureRequestFailed .derr) (carrying s (.ce 2 .read) 2 3)).lc.writes = [.voidHeader 11]
      ∧ ((after (.captureRequestFailed .derr) (carrying s (.ce 2 .read) 2 3)).eq.records.map EventRecord.condition) =
          [.memError] := by decide +kernel

/-- Section 6.7: only #41 is eligible; with #40 and #43 free, #40 is, and #43 stays behind the barrier of #42. -/
def barrier (c : CaptureState) : State :=
  holding (online [level1])
    [entry 40 0x00100000#32 .track 5 c true false, entry 42 0x00300000#32 .pass 0 .free true false,
     entry 43 0x00100000#32 .track 5 c true false]

theorem test_eligible_behind_barrier :
    let s := holding (barrier (.depends 50)) ((barrier (.depends 50)).hq.entries.take 1 ++
      [entry 41 0x00100040#32 .track 5 .free true false] ++ (barrier (.depends 50)).hq.entries.drop 1)
    (s.oldestEligible [] s.hq.entries).map HoldEntry.order = some 41
      ∧ ((barrier (.depends 50)).oldestEligible [] (barrier (.depends 50)).hq.entries) = none
      ∧ ((barrier .free).oldestEligible [] (barrier .free).hq.entries).map HoldEntry.order = some 40
      ∧ (barrier .free).readEligible = false := by decide

set_option maxRecDepth 40000 in
/-- Section 8.6: the scan has found five records; the hole at slot 45 ends it, and the replay starts at 44. -/
theorem test_scan_ends_at_hole :
    let s := { atWork .recovering .idle [] with
      lc := { ring with tail := 40, tailSequence := 300, head := 40, live := 0, durable := 0, nextSequence := 300 }
      re := { RestoreEngine.reset with
        stage := .scanning, purpose := .recovery, cursor := 45, scanned := 5, opens := 2, highest := 16 } }
    let t := after (.scanReadComplete (.okay 0)) (carrying s .re 0 4)
    t.lc.head = 45 ∧ t.lc.live = 5 ∧ t.lc.durable = 5 ∧ t.lc.nextSequence = 305 ∧ t.re.stage = .replaying
      ∧ t.re.cursor = 44 := by decide +kernel

/-- Section 8.6: the final anchor goes to B with generation 12, session 4 and next serial 17. -/
theorem test_recovery_anchor :
    let s := { atWork .recovering .idle [] with
      lc := { ring with
        tail := 40, tailSequence := 300, head := 45, live := 5, durable := 5, nextSequence := 305, session := 3
        nextSerial := 17, copyA := { standing := .valid, generation := 11 }, copyB := { standing := .valid, generation := 10 } } }
    s.anchorJob .recovery =
      { occasion := .recovery, copy := .b
        anchor := { generation := 12, session := 4, slots := 64, tail := 45, tailSequence := 305, nextSerial := 17 } } := by
  decide

/-- Section 10.5: a second assertion during the OPEN is dropped with reason 3; the freeze raises its two events. -/
theorem test_second_assertion_dropped :
    let s := atWork .online .opening [levelAt 30 10, { levelAt 31 11 with start := none, durable := false }]
    (after .faultAssertion { s with oc := { s.oc with latch := true } }).eq.records =
      [{ kind := .faultDropped, level := 2, condition := .none, serial := 31, argument := 3 }] := by decide

theorem test_freeze_events :
    let s := online [levelAt 30 10]
    (after .faultAssertion { s with opts := { s.opts with faultPolicy := .freeze } }).eq.records =
      [{ kind := .faultTaken, level := 1, condition := .none, serial := 30, argument := 0 },
       { kind := .fenced, level := 1, condition := .none, serial := 30, argument := 1 }] := by decide

/-- Section 11.6: a sixteenth record is appended, a seventeenth dropped and counted. -/
theorem test_queue_overflows :
    let q : EventQueue := { records := List.replicate 15 record, lost := 0 }
    (q.push record).records.length = 16 ∧ (q.push record).lost = 0 ∧ ((q.push record).push record).records.length = 16
      ∧ ((q.push record).push record).lost = 1 := by decide

/-! ## Witnesses: the hypotheses of each obligation are met -/

theorem witness_StepRunsFrontCommand :
    ({ State.reset with pending := [.nop, .status] } : State).pending = .nop :: [.status] := rfl

theorem witness_IdleStepIsOneMillisecond :
    State.reset.pending = [] ∧ State.reset.oc.timer = none
      ∧ (∀ n ∈ [0, 1, 60000],
          let s := { State.reset with oc := { State.reset.oc with timer := some n } }
          s.pending = [] ∧ s.oc.timer = some n) := by decide +kernel

theorem witness_ResetLineAbandonsEverything :
    let low (csLow : Bool) : State := { after .pinReset (online [level1]) with link := { State.reset.link with csLow } }
    (∀ b, (low b).resetLow = true ∧ (low b).link.csLow = b) ∧ Instr.nop ≠ .pinReset
      ∧ (∀ b, Instr.nop ≠ .resetnRelease b)
      ∧ Instr.frameBegin ≠ .pinReset ∧ (∀ b, Instr.frameBegin ≠ .resetnRelease b) ∧ encodeFrame .nop ≠ none := by
  decide +kernel

theorem witness_FollowUpsOfAStep :
    (∀ reason r, State.reset.up.state ≠ .stalled reason r) ∧ State.reset.quiet
      ∧ (∀ reason, reason ∈ [StallReason.situation, .queue] →
          ({ State.reset.up with state := .stalled reason (.readBlock 0) } : UpstreamPort).state =
            .stalled reason (.readBlock 0)) :=
  ⟨fun _ _ h => PortState.noConfusion h, by decide +kernel, fun _ _ => rfl⟩

theorem witness_FramesOnTheLink :
    State.reset.running ∧ State.reset.link.csLow = false ∧ (inFrame State.reset).linked
      ∧ (inFrame State.reset).link.csLow = true
      ∧ (inFrame State.reset).link.frame = some State.reset.link.result ∧ decodeFrame [0x7F] = .bad
      ∧ decodeFrame [0x33] = .bad ∧ State.reset.link.frame = none ∧ encodeFrame .nop ≠ none
      ∧ (after .pinReset (inFrame State.reset)).link.frame = none
      ∧ (after .pinReset (inFrame State.reset)).link.csLow = true := by decide +kernel

theorem witness_LinkQueriesAnswered :
    let s := inFrame (online (List.replicate 6 level1))
    s.linked ∧ s.eq.records = []
      ∧ ({ s with eq := { records := [record], lost := 0 } } : State).eq.records = record :: []
      ∧ s.oc.stack.length < (7 : Byte).toNat
      ∧ (∀ k ∈ [(1 : Byte), 6], k ≠ 0 ∧ s.oc.stack[k.toNat - 1]? = some level1) := by decide +kernel

theorem witness_AttnFollowsEventQueue :
    let full (n : Nat) : State := { inFrame State.reset with eq := { records := List.replicate n record, lost := 255 } }
    (full 15).eq.records.length < 16 ∧ 16 ≤ (full 16).eq.records.length ∧ (full 1).linked
      ∧ (full 1).eq.records = [record] ∧ (full 0).running := by decide +kernel

theorem witness_WindowCommandsChecked :
    let s := inFrame settings
    let fits (i : Byte) (base limit : Word32) (m : Byte) : Bool := decide (i.toNat < 8 ∧ (m = 0x00 ∨ m = 0x01)
      ∧ base.toNat % 0x1000 = 0 ∧ limit.toNat % 0x1000 = 0 ∧ base.toNat < limitOf limit
      ∧ (∀ p ∈ s.windows.zipIdx, p.1.valid = true → p.2 ≠ i.toNat →
          limitOf limit ≤ p.1.base.toNat ∨ p.1.limit.toNat ≤ base.toNat)
      ∧ (s.log.slots = 0 ∨ limitOf limit ≤ s.log.base.toNat ∨ s.log.areaEnd ≤ base.toNat))
    s.linked ∧ s.oc.mode = .offline ∧ (inFrame (online [])).oc.mode ≠ .offline
      ∧ fits 7 0xFFFFF000#32 0 0x01 ∧ fits 2 0x00180000#32 0x00200000#32 0x00 ∧ fits 0 0x00101000#32 0x00102000#32 0x01
      ∧ ¬fits 7 0xFFFFF000#32 0 0x02 ∧ ¬fits 8 0xFFFFF000#32 0 0x01 ∧ ¬fits 2 0x00280000#32 0x00290000#32 0x01
      ∧ 8 ≤ (8 : Byte).toNat ∧ (7 : Byte).toNat < 8 := by decide +kernel

theorem witness_SetlogChecked :
    let s := inFrame { State.reset with windows := oneWindow, opts := { State.reset.opts with highWater := 95 } }
    let fits (base slots : Word32) : Bool :=
      let areaEnd := base.toNat + 0x80 + slots.toNat * 0x80
      decide (base.toNat % 0x1000 = 0 ∧ 64 ≤ slots.toNat ∧ slots.toNat ≤ 1048576 ∧ areaEnd ≤ 0x100000000
        ∧ (∀ w ∈ s.windows, w.valid = true → areaEnd ≤ w.base.toNat ∨ w.limit.toNat ≤ base.toNat)
        ∧ (s.opts.highWater = 0 ∨ s.opts.highWater ≤ slots.toNat))
    s.linked ∧ s.oc.mode = .offline ∧ (inFrame (online [])).oc.mode ≠ .offline ∧ fits 0xFFFFD000#32 95
      ∧ fits 0x00180000#32 1048576 ∧ ¬fits 0xFFFFD000#32 96 ∧ ¬fits 0x00180000#32 94
      ∧ ¬fits 0x0017F000#32 95 := by decide +kernel

theorem witness_SetoptChecked :
    (inFrame (online [level1])).linked ∧ Instr.setoptWriteMode 2 ∈ [Instr.setoptWriteMode 2]
      ∧ (inFrame (atWork .fenced .idle [])).oc.mode ≠ .online ∧ (inFrame (atWork .fenced .idle [])).oc.mode ≠ .offline
      ∧ (atWork .online .opening []).oc.op ≠ .idle ∧ (online [level1]).oc.stack ≠ []
      ∧ (online []).oc.mode = .online ∧ (online []).oc.op = .idle ∧ (online []).oc.stack = []
      ∧ (inFrame State.reset).oc.mode = .offline := by decide +kernel

theorem witness_FramesDecodeToCommands :
    WellFormed (.setoptUnknownOption 7 0xFFFFFFFF#32) = true
      ∧ encodeFrame (.setoptUnknownOption 7 0xFFFFFFFF#32) = some [0x13, 0x07, 0xFF, 0xFF, 0xFF, 0xFF] := by
  decide +kernel

theorem witness_RequestClassAndTreatment :
    let s := online []
    s.log.slots ≠ 0 ∧ s.log.base.toNat ≤ 0x00202040 ∧ 0x00202040 < s.log.base.toNat + 0x80 + s.log.slots * 0x80
      ∧ ¬0x00202080 < s.log.base.toNat + 0x80 + s.log.slots * 0x80
      ∧ (∃ w ∈ s.windows, w.valid = true ∧ w.mode = .track ∧ w.base.toNat ≤ 0x0017FFC0 ∧ 0x0017FFC0 < w.limit.toNat)
      ∧ ¬(∃ w ∈ s.windows, w.valid = true ∧ w.base.toNat ≤ 0x00180000 ∧ 0x00180000 < w.limit.toNat)
      ∧ requestBad (.writeWord 0x00180000#32 0 0) = true
      ∧ requestBad (.writeWord 0x00180000#32 0x80 0) = false := by decide +kernel

theorem witness_BadRequestRefused :
    (online [level1]).running ∧ (online [level1]).up.state = .idle ∧ requestBad (.readBlock 0x00100020#32) = true
      ∧ requestBad (.writeWord 0x00100000#32 0 5) = true := by decide +kernel

theorem witness_RequestDecidedBySituation :
    let s := online [level1]
    let posted := { s with opts := { s.opts with writeMode := .posted } }
    let w := entry 30 0x00100000#32 .track 5 .free true false
    s.running ∧ s.up.state = .idle
      ∧ treatment s.oc.mode s.oc.op (s.classify (.writeBlock 0x00200000#32 0)) true = .refuse
      ∧ treatment .attaching .idle (s.classify (.readBlock 0x00100000#32)) false = .stall
      ∧ treatment s.oc.mode s.oc.op (s.classify (.readBlock 0x00100000#32)) false = .take
      ∧ treatment s.oc.mode s.oc.op (s.classify (.writeBlock 0x00100000#32 0)) true = .take
      ∧ s.opts.writeMode = .strict ∧ s.hq.entries = [] ∧ posted.opts.writeMode = .posted
      ∧ (holding posted (List.replicate 7 w)).hq.entries.length < 8
      ∧ 8 ≤ (holding posted (List.replicate 8 w)).hq.entries.length
      ∧ (holding s [w]).hq.entries ≠ [] := by decide +kernel

theorem witness_MasterTransfersEnd_read :
    let p : PendingRead := { addr := 0x00100000#32, isBlock := false, cls := .track }
    let s := { online [] with
      up := { UpstreamPort.reset with state := .readPending, received := 1 }, hq := { HoldQueue.reset with read := some p } }
    s.running ∧ s.hq.read = some p ∧ s.up.state = .readPending
      ∧ (carrying s .masterRead 0 4).endsWith .masterRead (.okay 7)
      ∧ (carrying s .masterRead 3 4).endsWith .masterRead (.failed .busy) := by
  simp only [endsWith_iff]; decide +kernel

theorem witness_MasterTransfersEnd_write :
    let e (acknowledged : Bool) := entry 30 0x00100000#32 .track 5 .free acknowledged true
    let s (acknowledged : Bool) := { holding (online [level1]) [e acknowledged] with
      up := { UpstreamPort.reset with state := if acknowledged then .idle else .writePending } }
    ∀ b, (s b).running ∧ (s b).hq.entry 30 = some (e b) ∧ (e b).acknowledged = b
      ∧ (s false).up.state = .writePending
      ∧ (carrying (s b) (.masterWrite 30) 0 4).endsWith (.masterWrite 30) (.okay 0)
      ∧ (carrying (s b) (.masterWrite 30) 3 4).endsWith (.masterWrite 30) (.failed .derr) := by
  simp only [endsWith_iff]; decide +kernel

theorem witness_DiscardAndRestamp :
    let s := { holding (online [level1]) [entry 30 0x00100000#32 .track 5 .waiting false false] with
      up := { UpstreamPort.reset with state := .writePending } }
    let p (e : HoldEntry) : Bool := decide (e.stamp = 5)
    (∃ e ∈ s.hq.entries, e.issued = false ∧ p e = true ∧ e.acknowledged = false) ∧ s.up.state ≠ .idle
      ∧ (∀ e ∈ (online []).hq.entries, e.issued = false → p e = true → e.acknowledged = true) := by decide +kernel

theorem witness_FaultAssertionDecided :
    let at_ (m : Mode) (op : OpState) (latch : Bool) : State :=
      { atWork m op [level1] with oc := { (atWork m op [level1]).oc with latch } }
    (∀ m ∈ [Mode.online, .fenced], ∀ op ∈ [OpState.rolling, .halted], (at_ m op false).oc.op = op)
      ∧ (at_ .fenced .idle false).oc.mode ≠ .online
      ∧ (∀ op ∈ [OpState.opening, .committing, .rotating, .detaching], ∀ latch,
          (at_ .online op latch).running ∧ (at_ .online op latch).oc.faultLine = false
            ∧ (at_ .online op latch).oc.op ≠ .rolling ∧ (at_ .online op latch).oc.op ≠ .halted
            ∧ (at_ .online op latch).oc.op ≠ .idle ∧ (at_ .online op latch).oc.latch = latch)
      ∧ (at_ .online .idle false).opts.faultPolicy ≠ .ignore
      ∧ ({ (at_ .online .idle false).oc with faultLine := true } : Controller).faultLine = true := by decide +kernel

theorem witness_FaultActedOnAtIdle :
    let s := online [level1, { levelAt 6 20 with broken := true }]
    s.running ∧ s.oc.faultLine = false ∧ s.oc.mode = .online ∧ s.oc.op = .idle ∧ s.opts.faultPolicy = .all
      ∧ s.oc.stack ≠ [] ∧ (online []).oc.stack = []
      ∧ (s.oc.stack.drop (1 - 1)).any (·.broken) = true ∧ (s.oc.stack.drop (2 - 1)).any (·.broken) = true
      ∧ ((online [level1]).oc.stack.drop (1 - 1)).any (·.broken) = false := by decide +kernel

theorem witness_LatchTakenFreezeThawed_latch :
    let latched (m : Mode) (op : OpState) : State :=
      { atWork m op [level1] with oc := { (atWork m op [level1]).oc with latch := true } }
    (latched .online .idle).running ∧ (latched .online .idle).oc.latch = true ∧ (latched .online .idle).oc.op = .idle
      ∧ (latched .online .idle).oc.mode = .online ∧ (latched .fenced .idle).oc.mode ≠ .online
      ∧ (latched .online .opening).oc.op ≠ .idle ∧ (online []).oc.latch = false := by decide +kernel

theorem witness_LatchTakenFreezeThawed_thaw :
    let s (op : OpState) (fence : FenceReason) : State :=
      inFrame { atWork .fenced op [level1] with oc := { (atWork .fenced op [level1]).oc with fence } }
    (s .idle .frozen).linked ∧ (s .idle .frozen).oc.mode = .fenced ∧ (s .idle .frozen).oc.fence = .frozen
      ∧ (s .idle .frozen).oc.op = .idle ∧ (s .rolling .frozen).oc.op ≠ .idle
      ∧ (s .idle .logDead).oc.fence ≠ .frozen := by
  decide +kernel

theorem witness_EpochCommandsChecked_open :
    let s := inFrame { online (List.replicate 5 level1) with lc := { ring with live := 63, nextSerial := 0xFFFFFFFF#32 } }
    s.linked ∧ s.oc.mode = .online ∧ s.oc.op = .idle ∧ s.oc.stack.length < 6 ∧ s.lc.live < s.log.slots
      ∧ s.lc.nextSerial ≠ 0 := by decide +kernel

theorem witness_InnerCommitMergesLevel :
    let s := inFrame (online [level1, levelAt 6 20])
    s.linked ∧ s.oc.mode = .online ∧ s.oc.op = .idle ∧ s.oc.stack = [] ++ [level1, levelAt 6 20] := by decide +kernel

theorem witness_EpochCommandsChecked_commitAndRotate :
    let s := inFrame (online [level1])
    s.linked ∧ s.oc.mode = .online ∧ s.oc.op = .idle ∧ s.oc.stack = [level1] ∧ s.lc.nextSerial ≠ 0 := by decide +kernel

theorem witness_EpochCommandsChecked_refused :
    let s (n : Nat) := inFrame (online (List.replicate n level1))
    let full := inFrame { online [level1] with lc := { ring with live := 64, nextSerial := 0 } }
    (s 6).linked ∧ (s 6).oc.mode = .online ∧ (s 6).oc.op = .idle ∧ 6 ≤ (s 6).oc.stack.length
      ∧ (s 5).oc.stack.length < 6 ∧ full.log.slots ≤ full.lc.live ∧ full.lc.nextSerial = 0 ∧ (s 0).oc.stack = []
      ∧ (s 2).oc.stack.length ≠ 1 ∧ full.oc.stack.length = 1 ∧ State.reset.oc.mode ≠ .online
      ∧ (atWork .online .halted []).oc.op ≠ .idle ∧ (atWork .fenced .rolling []).oc.op = .rolling
      ∧ (atWork .fenced .idle []).oc.op ≠ .rolling ∧ (atWork .fenced .idle []).oc.op ≠ .halted := by decide +kernel

/-- Over a rollback from a freeze the epoch commands give BUSY, in a frozen part at IDLE STATE (R118, R129, R170; log
33). -/
theorem test_epoch_commands_over_freeze :
    (∀ op ∈ [OpState.rolling, .halted], ∀ c ∈ [Instr.openEpoch, .commit, .rotate],
        (after c (inFrame (atWork .fenced op [level1]))).link.result = (State.reset.link.showing .busy []).result)
      ∧ ∀ c ∈ [Instr.openEpoch, .commit, .rotate],
        (after c (inFrame (atWork .fenced .idle [level1]))).link.result = (State.reset.link.showing .state []).result := by
  decide +kernel

theorem witness_TimerRotations :
    let s (n : Nat) (pending : Bool) : State :=
      { online [level1] with oc := { (online [level1]).oc with timer := some n, rotationPending := pending } }
    (s 0 true).running ∧ (s 0 true).oc.timer = some 0 ∧ (s 0 true).oc.rotationPending = true
      ∧ (s 0 false).oc.rotationPending = false ∧ (s 1 false).oc.timer ≠ some 0
      ∧ ((s 0 false).oc.mode = .online ∧ (s 0 false).oc.op = .idle ∧ (s 0 false).oc.stack.length = 1)
      ∧ ¬(online [level1, level1]).oc.stack.length = 1 := by decide +kernel

theorem witness_OrderingWaitEnds :
    let l : Level := { serial := 5, start := none, durable := false, broken := false, captures := 0 }
    let s (live : Nat) : State :=
      { atWork .online .opening [l] with
        lc := { ring with live }, oc := { (atWork .online .opening [l]).oc with phase := .openWait } }
    (s 63).running ∧ (s 63).oc.phase = .openWait ∧ (s 63).lc.dead = false
      ∧ (s 63).hq.entries.all
          (fun e => e.issued || !e.toConsider || decide ((s 63).oc.innermost.toNat ≤ e.stamp.toNat)) = true
      ∧ (s 63).lc.live ≠ (s 63).log.slots ∧ (s 64).lc.live = (s 64).log.slots ∧ (s 64).oc.stack = [] ++ [l]
      ∧ ({ (s 64) with ce := { CaptureEngine.reset with episode := true } } : State).ce.episode = true
      ∧ (s 64).opts.logFull = .stall := by decide +kernel

theorem witness_OrderingWaitEnds_goesOn :
    let s := holding { online [levelAt 5 10] with oc := { (online [levelAt 5 10]).oc with phase := .openWait } }
      [entry 30 0x00100040#32 .track 4 .notConsidered true false]
    (online [level1]).oc.phase ≠ .openWait
      ∧ s.hq.entries.all (fun e => e.issued || !e.toConsider || decide (s.oc.innermost.toNat ≤ e.stamp.toNat)) = false
      ∧ s.ce.episode = false := by decide +kernel

theorem witness_CommitAndRotateWaitsEnd :
    let x : Successor := { serial := 6, origin := .timer, marker := none }
    let s (p : OpPhase) (live : Nat) : State :=
      { atWork .online .rotating [level1] with
        lc := { ring with live }
        oc := { (atWork .online .rotating [level1]).oc with phase := p, successor := some x } }
    (s .commitWait 1).running ∧ (s .commitWait 1).oc.phase = .commitWait
      ∧ (∀ e ∈ (s .commitWait 1).hq.entries, e.stamp = (s .commitWait 1).oc.serialAt 1 →
          e.capture ≠ .notConsidered ∧ e.capture ≠ .waiting)
      ∧ (∀ c ∈ (s .commitWait 1).ce.contexts, c = none)
      ∧ (s .rotateWait 64).oc.phase = .rotateWait ∧ (s .rotateWait 64).oc.successor = some x
      ∧ (s .rotateWait 64).log.slots ≤ (s .rotateWait 64).lc.live
      ∧ (s .rotateWait 63).lc.live < (s .rotateWait 63).log.slots := by decide +kernel

theorem witness_CommitAndRotateWaitsEnd_goesOn :
    let s := holding (online [level1]) [entry 30 0x00100040#32 .track 5 .notConsidered true false]
    s.oc.phase ≠ .commitWait ∧ s.oc.phase ≠ .rotateWait ∧ s.ce.episode = false
      ∧ (∃ e ∈ s.hq.entries, e.stamp = s.oc.serialAt 1 ∧ e.capture = .notConsidered)
      ∧ some (context 0x00100040#32 11 .reading) ≠ none := by decide +kernel

/-- A write at the consideration point, over these contexts and filter entries. -/
def considering (contexts : List (Option Context)) (cf : List FilterEntry) (live : Nat) : State :=
  { holding (online [level1]) [entry 30 0x00100040#32 .track 5 .notConsidered true false] with
    cf, ce := { contexts, episode := false }, lc := { ring with live } }

theorem witness_ConsiderationPointAndBars :
    let e := entry 30 0x00100040#32 .track 5 .notConsidered true false
    let c := context 0x00100040#32 11 .reading
    let broke : Context := { c with failure := some .derr, state := .written }
    let s := considering [some broke, some c, none, none] [] 2
    let undurable : State := { s with oc := { s.oc with stack := [{ level1 with durable := false }] } }
    let barred : State := { s with oc := { s.oc with bar := some 5 } }
    let x : Successor := { serial := 6, origin := .timer, marker := none }
    let rotating : State := { s with oc := { s.oc with successor := some x } }
    s.considerationPoint = some e ∧ s.mayConsider e = true ∧ (online []).considerationPoint = none
      ∧ (atWork .recovering .idle []).considers = false
      ∧ undurable.considerationPoint = some e ∧ (∀ l ∈ undurable.oc.stack, l.serial = e.stamp → l.durable = false)
      ∧ barred.considerationPoint = some e ∧ barred.oc.bar = some e.stamp
      ∧ level1.serial ≠ 0 ∧ s.oc.stack[0]? = some level1
      ∧ rotating.oc.successor = some x ∧ x.serial ≠ 0 ∧ (∀ l ∈ rotating.oc.stack, l.serial ≠ x.serial)
      ∧ s.ce.busyOn e.block 1 = some c ∧ (considering [some broke] [] 2).ce.busyOn e.block 1 = some broke
      ∧ broke.failure ≠ none := by decide +kernel

theorem witness_ConsiderationSettledByLookup :
    let e := entry 30 0x00100040#32 .track 5 .notConsidered true false
    let c := context 0x00100040#32 11 .reading
    let f : FilterEntry := { block := 0x00100040#32, level := 1, way := 0 }
    let s (c : Option Context) (cf : List FilterEntry) := considering [c, none, none, none] cf 2
    let broke : Context := { c with failure := some .derr, state := .written }
    (s none []).running ∧ (s none []).considers = true ∧ (s none []).considerationPoint = some e
      ∧ (s none []).mayConsider e = true ∧ (s none []).oc.levelOf e.stamp = some 1
      ∧ (∃ x ∈ (s none [f]).cf, x.block = e.block ∧ x.level = 1) ∧ (s (some c) [f]).ce.busyOn e.block 1 = some c
      ∧ (s none [f]).ce.busyOn e.block 1 = none ∧ ¬(∃ x ∈ (s none []).cf, x.block = e.block ∧ x.level = 1)
      ∧ c.failure = none ∧ (s (some broke) []).ce.busyOn e.block 1 = some broke ∧ broke.failure ≠ none
      ∧ (s none []).opts.writeMode = .strict := by decide +kernel

theorem witness_ConsiderationStartsCapture :
    let e := entry 30 0x00100040#32 .track 5 .notConsidered true false
    let other := context 0x00100080#32 11 .reading
    let s := considering [some other, none, none, none] [] 63
    s.running ∧ s.considers = true ∧ s.considerationPoint = some e ∧ s.mayConsider e = true
      ∧ s.oc.levelOf e.stamp = some 1 ∧ (∀ x ∈ s.cf, ¬(x.block = e.block ∧ x.level = 1))
      ∧ s.ce.busyOn e.block 1 = none ∧ s.oc.detaching = false ∧ s.ce.episode = false ∧ s.ce.contexts[1]? = some none
      ∧ (∀ j : Fin 1, s.ce.contexts[j.1]? = some (some other)) ∧ s.lc.live ≠ s.log.slots := by decide +kernel

theorem witness_ConsiderationWithoutSlot :
    let e := entry 30 0x00100040#32 .track 5 .notConsidered true false
    let busy := considering (List.replicate 4 (some (context 0x00100080#32 11 .reading))) [] 64
    let full := considering [none, none, none, none] [] 64
    let episode : State := { full with ce := { full.ce with episode := true } }
    let detaching (s : State) : State :=
      { s with oc := { s.oc with mode := .fenced, fence := .frozen, op := .detaching, detaching := true } }
    (∀ s ∈ [busy, full, episode, detaching busy, detaching full, detaching episode],
      s.running ∧ s.considers = true ∧ s.considerationPoint = some e ∧ s.mayConsider e = true
        ∧ s.oc.levelOf e.stamp = some 1 ∧ (∀ x ∈ s.cf, ¬(x.block = e.block ∧ x.level = 1))
        ∧ s.ce.busyOn e.block 1 = none ∧ s.opts.logFull = .stall)
      ∧ full.ce.episode = false ∧ episode.ce.episode = true ∧ full.oc.detaching = false
      ∧ (detaching full).oc.detaching = true ∧ (∀ c ∈ busy.ce.contexts, c ≠ none)
      ∧ none ∈ full.ce.contexts ∧ full.lc.live = full.log.slots
      ∧ ({ full with opts := { full.opts with logFull := .break_ } } : State).opts.logFull = .break_ := by
  decide +kernel

/-- After an accepted DETACH from a freeze a write that finds no free context waits (R80), and one in an episode waits
or, under BREAK, goes free with its block entered (R91, R92); one that a free context would take is left as it is. -/
theorem test_consideration_after_detach :
    let frozen (contexts : List (Option Context)) (episode : Bool) (logFull : LogFullPolicy) : State :=
      let s := considering contexts [] 64
      { s with
        ce := { s.ce with episode }
        opts := { s.opts with logFull }
        oc := { s.oc with mode := .fenced, fence := .frozen, op := .detaching, detaching := true } }
    let captures (s : State) := (after .consideration s).hq.entries.map HoldEntry.capture
    captures (frozen (List.replicate 4 (some (context 0x00100080#32 11 .reading))) false .stall) = [.waiting]
      ∧ captures (frozen [none] true .stall) = [.waiting] ∧ captures (frozen [none] true .break_) = [.free]
      ∧ (after .consideration (frozen [none] true .break_)).cf = [{ block := 0x00100040#32, level := 1, way := 0 }]
      ∧ captures (frozen [none] false .stall) = [.notConsidered] := by decide +kernel

theorem witness_FilterInsertionPlacesBlock :
    let f (block : Addr) (level way : Nat) : FilterEntry := { block, level, way }
    let inSet (block : Addr) (e : FilterEntry) : Bool := decide (e.block.toNat / 64 % 256 = block.toNat / 64 % 256)
    let three := [f 0x00100000#32 2 0, f 0x00104000#32 1 1, f 0x00108000#32 2 2]
    let pre := [f 0x00100000#32 2 0]
    let post := [f 0x00108000#32 2 2, f 0x0010C000#32 1 3]
    let old := f 0x00104000#32 1 1
    let four := pre ++ old :: post
    three = [f 0x00100000#32 2 0] ++ f 0x00104000#32 1 1 :: [f 0x00108000#32 2 2]
      ∧ (∀ e ∈ [f 0x00100000#32 2 0, f 0x00108000#32 2 2], e.block ≠ 0x00104000#32)
      ∧ (∀ e ∈ three, e.block ≠ 0x0010C000#32) ∧ (∀ e ∈ three, inSet 0x0010C000#32 e → e.way ≠ 3)
      ∧ (∀ v < 3, ∃ e ∈ three, inSet 0x0010C000#32 e ∧ e.way = v)
      ∧ (∀ e ∈ four, e.block ≠ 0x00110000#32) ∧ (∀ w < 4, ∃ e ∈ four, inSet 0x00110000#32 e ∧ e.way = w)
      ∧ inSet 0x00110000#32 old ∧ (∀ e ∈ pre, inSet 0x00110000#32 e → old.level < e.level)
      ∧ (∀ e ∈ post, inSet 0x00110000#32 e → old.level ≤ e.level)
      ∧ (∀ e ∈ pre ++ post, e.block ≠ old.block) := by decide +kernel

/-- One capture at this state in slot 11, its reservation the oldest. -/
def capturing (state : ContextState) : State :=
  { online [level1] with
    lc := { ring with head := 12, live := 2, nextSequence := 52, reservations := [reserved 11 51 .capture .pending none] }
    ce := { CaptureEngine.reset with contexts := [some (context 0x00100040#32 11 state), none, none, none] } }

theorem witness_CaptureRequestsComplete_readAndPayload :
    (capturing .reading).running
      ∧ (capturing .reading).ce.contexts[0]? = some (some (context 0x00100040#32 11 .reading))
      ∧ (carrying (capturing .reading) (.ce 0 .read) 0 4).endsWith (.ce 0 .read) (.okay 7)
      ∧ (carrying (capturing .writingPayload) (.ce 0 .payload) 3 4).endsWith (.ce 0 .payload) (.okay 0) := by
  simp only [endsWith_iff]; decide +kernel

theorem witness_CaptureRequestsComplete_header :
    let s := carrying (capturing .writingHeader) (.ce 0 .header) 0 4
    let r := reserved 11 51 .capture .pending none
    let older := reserved 10 50 .capture .pending none
    s.running ∧ s.ce.contexts[0]? = some (some (context 0x00100040#32 11 .writingHeader))
      ∧ s.endsWith (.ce 0 .header) (.okay 0) ∧ s.lc.reservations = [r] ∧ r.purpose = .capture ∧ r.failure = none
      ∧ r.level ≠ 0 ∧ s.lc.durable < s.lc.live ∧ older.slot ≠ (context 0x00100040#32 11 .writingHeader).slot
      ∧ older.state ≠ .written := by
  simp only [endsWith_iff]; decide +kernel

theorem witness_DurableMarkPassesRun :
    let run := [reserved 11 51 .capture .written none, reserved 12 52 .capture .written (some .busy)]
    let rest := [reserved 13 53 .marker .pending none]
    let s := { online [level1] with
      lc := { ring with head := 14, live := 4, nextSequence := 54, reservations := run ++ rest } }
    (∀ r ∈ run, r.state = .written ∧ r.purpose = .capture ∧ r.level ≠ 0) ∧ s.lc.durable + run.length ≤ s.lc.live
      ∧ s.lc.reservations = run ++ rest ∧ (∀ r ∈ rest, r.state ≠ .written) ∧ s.lc.durable < s.lc.live
      ∧ (reserved 11 51 .marker .written (some .busy)).failure = some .busy
      ∧ (capturing .written).running ∧ (carrying s (.lcOpen 13) 0 4).endsWith (.lcOpen 13) (.okay 0)
      ∧ (carrying s (.lcVoid 12) 3 4).endsWith (.lcVoid 12) (.okay 0)
      ∧ (online []).lc.live ≤ (online []).lc.durable := by
  simp only [endsWith_iff]; decide +kernel

theorem witness_CaptureFailureHandled :
    let s := carrying (capturing .writingPayload) (.ce 0 .payload) 3 4
    s.running ∧ s.ce.contexts[0]? = some (some (context 0x00100040#32 11 .writingPayload))
      ∧ s.endsWith (.ce 0 .payload) (.failed .busy) ∧ s.endsWith (.ce 0 .payload) (.failed .derr)
      ∧ s.oc.detaching = false ∧ s.opts.writeMode = .strict
      ∧ ({ s.oc with detaching := true } : Controller).detaching = true := by
  simp only [endsWith_iff]; decide +kernel

/-- A break while SETTLING: the levels not yet broken break with their events, ascending, and the range break is set. -/
theorem test_break_while_settling :
    let s := atWork .online .rolling [level1, { levelAt 6 11 with broken := true }, levelAt 7 12]
    let settling : State := { s with re := { s.re with stage := .settling, target := 3 } }
    let t := settling.breakAll .memError 0x00100040#32
    t.oc.stack.map Level.broken = [true, true, true] ∧ t.re.rangeBreak = .memError
      ∧ t.eq.records = [{ kind := .epochBroken, level := 1, condition := .memError, serial := 5, argument := 0x00100040#32 },
                        { kind := .epochBroken, level := 3, condition := .memError, serial := 7, argument := 0x00100040#32 }]
      ∧ ({ settling with re := { settling.re with rangeBreak := .memBusy } }.breakAll .memError 0).re.rangeBreak = .memBusy
      ∧ ({ settling with re := { settling.re with stage := .replaying } }.breakAll .memError 0).re.rangeBreak = .none := by
  decide +kernel

set_option maxRecDepth 40000 in
/-- A header of each kind at a slot, one that fails each test, and the two ends of the ring. -/
theorem witness_RecordsLaidOutAndTested :
    let lc := { ring with session := 4, tail := 16, tailSequence := 0x60 }
    let h := exampleHeader.encodeUndo 9
    let kindOf (k : RecordKind) := ({ exampleHeader with kind := k } : RecordHeader).encode
    let bits (w : BlockData) (start count : Nat) : List Bool := (List.range count).map fun i => w.getLsbD (start + i)
    let check (payload : BlockData) : Word32 := crc32 (bits h 0 192 ++ bits h 224 288 ++ bits payload 0 512)
    headerKind h = some .undo ∧ headerKind (kindOf .open_) = some .open_ ∧ headerKind (kindOf .void) = some .void
      ∧ headerKind 0 = none ∧ h.extractLsb' 192 32 = check 9 ∧ h.extractLsb' 192 32 ≠ check 8
      ∧ headerSession h = lc.session ∧ headerSession h ≠ 5 ∧ headerSequence h = lc.sequenceOf 64 21
      ∧ headerSequence h ≠ lc.sequenceOf 64 20 ∧ ringDistance 64 63 0 = 1 ∧ ringDistance 64 0 63 = 63
      ∧ ringDistance 64 63 63 = 0 ∧ (atWork .online .idle []).restorable 0x0017FFC0#32 = true
      ∧ (atWork .online .idle []).restorable 0x00180000#32 = false := by decide +kernel

/-- Every pair of standings, the two generations on each side of the antipode, and the ends of the serials. -/
theorem witness_AnchorsLaidOutAndChosen :
    let copy (standing : Standing) (generation : Word32) : AnchorCopy := { standing, generation }
    let s (a b : AnchorCopy) : State := { online [] with lc := { ring with copyA := a, copyB := b } }
    ((0x7FFFFFFF#32 - 0).toNat ≤ 0x7FFFFFFF ∧ 0x80000000 < (0x80000001#32 - 0).toNat)
      ∧ (∀ st ∈ [Standing.unknown, .invalid], (s (copy st 7) (copy st 7)).lc.copyA.standing ≠ .valid
          ∧ (s (copy st 7) (copy .valid 7)).lc.copyB.standing = .valid
          ∧ (s (copy .valid 7) (copy st 7)).lc.copyB.standing ≠ .valid)
      ∧ ((s (copy .valid 0xFFFFFFFF#32) (copy .valid 0)).anchorJob .commit).copy = .a
      ∧ ((s (copy .valid 0xFFFFFFFF#32) (copy .valid 0)).anchorJob .commit).anchor.generation = 1
      ∧ recoveredSerial 0xFFFFFFFF#32 0 = 0xFFFFFFFF#32 ∧ recoveredSerial 5 0xFFFFFFFE#32 = 0xFFFFFFFF#32
      ∧ recoveredSerial 5 0xFFFFFFFF#32 = 0 ∧ recoveredSerial 0 5 = 0
      ∧ newSession 0xFFFFFFFF#32 = 1 := by decide +kernel

/-- A marker or a VOID in slot 11, at this phase, with this stack. -/
def marking (phase : OpPhase) (stack : List Level) (failure : Option MemFailure) : State :=
  { atWork .online .opening stack with
    lc := { ring with head := 12, live := 2, nextSequence := 52, reservations := [reserved 11 51 .marker .pending failure] }
    oc := { (atWork .online .opening stack).oc with
      phase, successor := some { serial := 6, origin := .timer, marker := some 11 } } }

theorem witness_MarkerAndVoidWritesEnd :
    let s := marking .openMarker [level1, levelAt 6 11] none
    let v := marking .openMarker [level1] (some .derr)
    let r := reserved 11 51 .marker .pending none
    s.running ∧ s.lc.reservations = [r] ∧ s.lc.durable < s.lc.live
      ∧ (∀ x ∈ [reserved 12 52 .capture .written none], x.slot ≠ r.slot)
      ∧ (carrying s (.lcOpen 11) 0 4).endsWith (.lcOpen r.slot) (.okay 0) ∧ r.purpose = .marker ∧ r.failure = none
      ∧ s.oc.phase = .openMarker ∧ r.level ≠ 0 ∧ (carrying s (.lcOpen 11) 3 4).endsWith (.lcOpen r.slot) (.failed .busy)
      ∧ (carrying v (.lcVoid 11) 0 4).endsWith (.lcVoid 11) (.okay 0)
      ∧ v.lc.reservations = [reserved 11 51 .marker .pending (some .derr)]
      ∧ v.oc.stack = [] ++ [level1] ∧ s.oc.stack = [level1] ++ [levelAt 6 11]
      ∧ (reserved 11 51 .capture .voiding (some .busy)).purpose = .capture
      ∧ (reserved 11 51 .capture .voiding (some .busy)).failure ≠ none := by
  simp only [endsWith_iff]; decide +kernel

/-- A marker that fails in slot 12, behind a capture's unwritten slot 11: its own reservation is VOIDING (R31). -/
theorem test_marker_fails_behind_slot :
    let first := reserved 11 51 .capture .pending none
    let marker := reserved 12 52 .marker .pending none
    let s := marking .openMarker [level1, levelAt 6 12] none
    let waiting : State := { s with lc := { s.lc with head := 13, live := 3, reservations := [first, marker] } }
    let t := after (.markerWriteFailed .busy) (carrying waiting (.lcOpen 12) 3 4)
    t.lc.reservations = [first, { marker with state := .voiding, failure := some .busy }]
      ∧ t.lc.writes = [.voidHeader 12] := by decide +kernel

theorem witness_LogDeathFences :
    let s := online [level1]
    let job := s.anchorJob .commit
    let latched : State := { marking .openMarker [level1, levelAt 6 11] none with
      oc := { (marking .openMarker [level1, levelAt 6 11] none).oc with latch := true } }
    let a : Attach := { phase := .writing, arg := .format }
    let attaching : State :=
      { atWork .attaching .idle [] with oc := { (atWork .attaching .idle []).oc with attach := some a } }
    let detaching : State := { s with oc := { s.oc with op := .detaching, detaching := true } }
    s.running ∧ s.oc.detaching = false ∧ (carrying s (.lcVoid 11) 0 1).endsWith (.lcVoid 11) (.failed .busy)
      ∧ s.oc.mode ≠ .attaching ∧ (carrying s (.lcAnchor job) 14 15).endsWith (.lcAnchor job) (.failed .derr)
      ∧ s.oc.phase = .none ∧ s.oc.latch = false ∧ latched.oc.latch = true ∧ latched.oc.phase = .openMarker
      ∧ attaching.running ∧ attaching.oc.detaching = false ∧ attaching.oc.mode = .attaching
      ∧ attaching.oc.attach = some a
      ∧ (carrying attaching (.lcAnchor job) 3 4).endsWith (.lcAnchor job) (.failed .derr)
      ∧ detaching.running ∧ detaching.oc.detaching = true
      ∧ (carrying detaching (.lcVoid 11) 3 4).endsWith (.lcVoid 11) (.failed .busy)
      ∧ (carrying detaching (.lcAnchor job) 3 4).endsWith (.lcAnchor job) (.failed .busy) := by
  simp only [endsWith_iff]; decide +kernel

theorem witness_LogDeathFences_writes :
    let strict := entry 30 0x00100040#32 .track 5 .notConsidered false false
    let s := holding (marking (.openReclaim 6) [] none) [strict]
    let waiting : State := { s with up := { s.up with state := .writePending } }
    s.oc.phase = .openReclaim 6 ∧ (marking (.rotateLateMarker .command) [level1] none).oc.phase = .rotateLateMarker .command
      ∧ (s.hq.entries.any fun e => (decide (e.cls = .track) && !e.issued) && !e.acknowledged) = true
      ∧ waiting.up.state = .writePending
      ∧ ((online []).hq.entries.any fun e => (decide (e.cls = .track) && !e.issued) && !e.acknowledged) = false
      ∧ (online []).up.unstalled := by
  refine ⟨by decide +kernel, by decide +kernel, by decide +kernel, by decide +kernel, by decide +kernel, ?_⟩
  intro reason r h
  cases h

/-- At the death of the log a STRICT HELD TRACK write is answered ERROR and goes; PASS and ISSUED writes stay (R107,
R109). -/
theorem test_log_death_answers_strict :
    let strict := entry 32 0x00100040#32 .track 5 .notConsidered false false
    let issued := entry 30 0x00100080#32 .track 5 .free true true
    let pass := entry 31 0x00300000#32 .pass 0 .free true false
    let s := holding (online [level1]) [issued, pass, strict]
    let waiting : State := { s with up := { s.up with state := .writePending } }
    let t := after (.voidWriteFailed .derr) (carrying waiting (.lcVoid 11) 3 4)
    t.hq.entries = [issued, pass] ∧ t.up.state = .idle ∧ t.up.answers = [{ okay := false, data := none }] := by
  decide +kernel

/-- The log dies inside an OPEN with the latch set: the level is popped, and OPEN_FAILED, FENCED and FAULT_DROPPED
arrive in this order (R51, R39, R168). -/
theorem test_log_death_in_open :
    let s : State := { marking .openMarker [level1, levelAt 6 11] (some .derr) with
      oc := { (marking .openMarker [level1, levelAt 6 11] none).oc with latch := true } }
    let t := after (.voidWriteFailed .derr) (carrying s (.lcVoid 11) 3 4)
    t.oc.stack = [level1] ∧ t.oc.stamp = 5
      ∧ t.eq.records =
          [{ kind := .openFailed, level := 2, condition := .logDead, serial := 6, argument := 0 },
           { kind := .fenced, level := 1, condition := .memError, serial := 5, argument := 3 },
           { kind := .faultDropped, level := 1, condition := .none, serial := 5, argument := 1 }] := by decide +kernel

theorem witness_AnchorWriteSetsRing :
    let s := { marking .commitAnchor [level1] none with re := { RestoreEngine.reset with stage := .anchoring } }
    let done : State := { s with lc := { s.lc with durable := 2 } }
    (∀ o ∈ [AnchorOccasion.commit, .openReclaim, .rotateReclaim, .rotateMarker 11 51, .rotateFirst, .attachKeep,
            .formatA 4, .formatB, .recovery, .rollback, .discard],
        (carrying s (.lcAnchor (s.anchorJob o)) 0 4).endsWith (.lcAnchor (s.anchorJob o)) (.okay 0)
          ∧ (s.anchorJob o).occasion = o)
      ∧ s.running ∧ s.oc.stack = [level1] ∧ s.oc.successor = some { serial := 6, origin := .timer, marker := some 11 }
      ∧ (s.anchorJob .commit).copy = .a ∧ s.re.fromFreeze = false
      ∧ ({ s.re with fromFreeze := true } : RestoreEngine).fromFreeze = true
      ∧ ({ s with lc := { s.lc with copyA := { standing := .valid, generation := 9 } } }.anchorJob .commit).copy = .b
      ∧ 1 < done.log.slots ∧ 11 < done.log.slots ∧ (done.anchorJob (.rotateMarker 11 51)).anchor.tail.toNat = 11
      ∧ done.lc.head = (11 + 1) % done.log.slots
      ∧ (done.lc.tail + done.lc.durable) % done.log.slots = done.lc.head := by
  simp only [endsWith_iff]; decide +kernel

theorem witness_RotationMarkersEnd :
    let x : Successor := { serial := 6, origin := .timer, marker := some 11 }
    let s (p : OpPhase) (f : Option MemFailure) := marking p [level1] f
    (∀ p ∈ [OpPhase.rotateMarker, .rotateLateMarker .command],
      (s p none).running ∧ (s p none).lc.reservations = [reserved 11 51 .marker .pending none]
        ∧ (s p none).lc.durable < (s p none).lc.live ∧ (s p none).oc.phase = p
        ∧ (carrying (s p none) (.lcOpen 11) 0 4).endsWith (.lcOpen 11) (.okay 0)
        ∧ (carrying (s p (some .busy)) (.lcVoid 11) 0 4).endsWith (.lcVoid 11) (.okay 0)
        ∧ (s p (some .busy)).oc.successor = some x ∧ (s p (some .busy)).oc.stack = [level1])
      ∧ (carrying (s .rotateFirstAnchor none) (.lcAnchor ((s .rotateFirstAnchor none).anchorJob .rotateFirst)) 0 4).endsWith
          (.lcAnchor ((s .rotateFirstAnchor none).anchorJob .rotateFirst)) (.okay 0)
      ∧ ((s .rotateFirstAnchor none).anchorJob .rotateFirst).occasion = .rotateFirst := by
  simp only [endsWith_iff]; decide +kernel

theorem witness_AttachAcceptedAndDrained :
    let s := inFrame (atWork .offline .idle [])
    let e (acknowledged : Bool) := entry 30 0x00200000#32 .log 0 .free acknowledged false
    let a : Attach := { phase := .draining, arg := .keep }
    let draining : State :=
      { atWork .attaching .idle [] with oc := { (atWork .attaching .idle []).oc with attach := some a } }
    s.linked ∧ s.oc.mode = .offline ∧ (inFrame (online [])).oc.mode ≠ .offline ∧ (2 : Byte) ≠ 0x00 ∧ (2 : Byte) ≠ 0x01
      ∧ s.log.slots ≠ 0 ∧ (inFrame State.reset).log.slots = 0 ∧ (∀ x ∈ s.hq.entries, x.cls = .log → x.issued = true)
      ∧ (∀ b, (holding s [e b]).hq.entries = [] ++ e b :: [] ∧ (e b).cls = .log ∧ (e b).issued = false
          ∧ (e b).acknowledged = b)
      ∧ draining.running ∧ draining.oc.mode = .attaching ∧ draining.oc.attach = some a ∧ a.phase = .draining
      ∧ (∀ x ∈ draining.hq.entries, x.cls ≠ .track) := by decide +kernel

theorem witness_AttachAcceptedAndDrained_goesOn :
    let e := entry 30 0x00100040#32 .track 0 .free true true
    (online []).running ∧ (online []).oc.mode ≠ .attaching ∧ (online []).oc.attach = none
      ∧ ({ phase := .reading, arg := .keep } : Attach).phase ≠ .draining
      ∧ e ∈ (holding (atWork .attaching .idle []) [e]).hq.entries ∧ e.cls = .track := by decide +kernel

theorem witness_AttachReadsRing :
    let s (arg : AttachArg) : State := { atWork .attaching .idle [] with
      oc := { (atWork .attaching .idle []).oc with attach := some { phase := .reading, arg } } }
    (∀ arg ∈ [AttachArg.keep, .format], (s arg).running ∧ (s arg).oc.attach = some { phase := .reading, arg })
      ∧ (∀ o ∈ [Owner.lcReadA, .lcReadB none, .lcReadB (some anchorA), .lcTailHeader, .lcTailPayload 0],
          (carrying (s .keep) o 0 4).endsWith o (.okay 0) ∧ (carrying (s .keep) o 3 4).endsWith o (.failed .derr))
      ∧ selectAnchor (some anchorA) none = some anchorA := by
  simp only [endsWith_iff]; decide +kernel

/-- The restore engine at this stage of this purpose, its handling at `handling`. -/
def restoring (mode : Mode) (stage : Stage) (purpose : RestorePurpose) (handling : Handling) : State :=
  { atWork mode (if mode = .online then .rolling else .idle) (if mode = .online then [level1] else []) with
    re := { RestoreEngine.reset with stage, purpose, handling, cursor := 10, targetSerial := 5 } }

/-- The OPEN record of level 1 in slot 10, and a VOID record there. -/
def recordAt10 (kind : RecordKind) : BlockData :=
  ({ kind, level := 1, session := 3, sequence := 50, serial := 5, blockAddr := 0 } : RecordHeader).encode

/-- An UNDO record of level 1 in slot 10. -/
def undoAt10 : BlockData :=
  ({ kind := .undo, level := 1, session := 3, sequence := 50, serial := 5, blockAddr := 0x00100040#32 } :
    RecordHeader).encodeUndo 9

set_option maxRecDepth 40000 in
theorem test_records_at_10 :
    headerKind undoAt10 = some .undo ∧ headerSerial undoAt10 = 5 ∧ headerSerial (recordAt10 .open_) = 5
      ∧ headerSerial (recordAt10 .void) = 5 ∧ ringTest ring 64 10 undoAt10 9 = .passes .undo
      ∧ ringTest ring 64 10 undoAt10 8 = .fails .badCheck ∧ ringTest ring 64 10 (recordAt10 .open_) 0 = .passes .open_
      ∧ ringTest ring 64 10 (recordAt10 .void) 0 = .passes .void := by decide +kernel

theorem witness_RecoveryStartsAndScans :
    let s (handling : Handling) := restoring .recovering .scanning .recovery handling
    let last (aborting : Bool) : RestoreEngine := { (s .header).re with scanned := 63, abortRequested := aborting }
    (inFrame (atWork .suspect .idle [])).linked ∧ (inFrame (atWork .suspect .idle [])).oc.mode = .suspect
      ∧ (inFrame (online [])).oc.mode ≠ .suspect ∧ (s .header).running ∧ (s .header).re.stage = .scanning
      ∧ (s .header).re.handling = .header ∧ (s (.payload 1)).re.handling = .payload 1
      ∧ (carrying (s .header) .re 0 4).endsWith .re (.okay undoAt10) ∧ headerKind (0 : BlockData) ≠ some .undo
      ∧ (s .header).re.scanned + 1 < (s .header).log.slots ∧ (s .header).re.abortRequested = false
      ∧ (s .header).lc = ring ∧ (s .header).log.slots = 64 ∧ (s .header).re.cursor = 10
      ∧ (∀ b, (last b).scanned ≠ 0 ∧ 64 ≤ (last b).scanned + 1 ∧ (last b).abortRequested = b)
      ∧ (s .header).re.scanned = 0
      ∧ (carrying (s .header) .re 3 4).endsWith .re (.failed .busy) ∧ (.header : Handling) ≠ .restore 0 0 := by
  simp only [endsWith_iff]; decide +kernel

theorem witness_RecoveryReplays :
    let s (handling : Handling) := restoring .recovering .replaying .recovery handling
    (s .header).running ∧ (s .header).re.stage = .replaying ∧ (s .header).re.purpose = .recovery
      ∧ (s .header).re.handling = .header ∧ (s (.payload 1)).re.handling = .payload 1
      ∧ (s (.restore 0x00100040#32 9)).re.handling = .restore 0x00100040#32 9
      ∧ (s .header).lc = ring ∧ (s .header).log.slots = 64 ∧ (s .header).re.cursor = 10
      ∧ (carrying (s .header) .re 0 4).endsWith .re (.okay (recordAt10 .open_))
      ∧ (carrying (s .header) .re 3 4).endsWith .re (.failed .derr) ∧ (s .header).re.abortRequested = false
      ∧ (s .header).re.cursor = (s .header).lc.tail ∧ (s .header).restorable 0x00100040#32 = true
      ∧ (s .header).restorable 0x00300000#32 = false
      ∧ ({ (s .header).re with cursor := 11, abortRequested := true } : RestoreEngine).cursor ≠ (s .header).lc.tail := by
  simp only [endsWith_iff]; decide +kernel

theorem witness_DetachAcceptedAndCompleted :
    let at_ (m : Mode) (op : OpState) (stage : Stage) : State :=
      inFrame { atWork m op [] with re := { RestoreEngine.reset with stage } }
    let detaching : State :=
      { at_ .online .detaching .idle with oc := { (at_ .online .detaching .idle).oc with detaching := true } }
    (at_ .attaching .idle .idle).linked ∧ (at_ .recovering .idle .scanning).re.stage ≠ .halted
      ∧ (at_ .fenced .rolling .replaying).oc.op ≠ .idle
      ∧ ¬((at_ .online .halted .anchoring).oc.op = .halted ∧ (at_ .online .halted .anchoring).re.stage = .halted)
      ∧ (at_ .recovering .idle .halted).re.stage = .halted ∧ (at_ .online .idle .idle).oc.stack = []
      ∧ (at_ .fenced .idle .idle).oc.op = .idle ∧ (at_ .online .halted .halted).oc.op = .halted
      ∧ (online [level1]).oc.stack ≠ [] ∧ detaching.running ∧ detaching.oc.detaching = true
      ∧ detaching.dp.port = none ∧ (∀ e ∈ detaching.hq.entries, e.cls = .track → e.issued = false)
      ∧ (online []).oc.detaching = false := by decide +kernel

theorem witness_DetachAcceptedAndCompleted_goesOn :
    let e := entry 30 0x00100040#32 .track 0 .free true true
    (online []).running
      ∧ ((carrying (online []) (.lcVoid 11) 0 1).dp.port.map fun a => a.owner.requester) = some .lc
      ∧ Requester.lc ≠ .masterPath ∧ e ∈ (holding (online []) [e]).hq.entries ∧ e.cls = .track ∧ e.issued = true := by
  decide +kernel

/-- A latch set at the completion of a detach is dropped before DETACHED (R168, log 14). -/
theorem test_latch_at_detach :
    let s := atWork .online .detaching []
    let detaching : State := { s with oc := { s.oc with detaching := true, latch := true } }
    (after .detachComplete detaching).eq.records =
      [{ kind := .faultDropped, level := 0, condition := .none, serial := 0, argument := 1 },
       { kind := .detached, level := 0, condition := .none, serial := 0, argument := 0 }] := by decide +kernel

theorem witness_RollbackAccepted :
    let s := inFrame (online (List.replicate 6 level1))
    let frozen := inFrame { atWork .fenced .idle [level1] with
      oc := { (atWork .fenced .idle [level1]).oc with fence := .frozen } }
    let broken := inFrame (online [level1, { levelAt 6 20 with broken := true }])
    s.linked ∧ s.oc.mode = .online ∧ s.oc.op = .idle ∧ s.oc.stack ≠ [] ∧ s.oc.stack.length < (7 : Byte).toNat
      ∧ 1 ≤ (6 : Byte).toNat ∧ (6 : Byte).toNat ≤ s.oc.stack.length
      ∧ (s.oc.stack.drop ((6 : Byte).toNat - 1)).any (·.broken) = false
      ∧ (broken.oc.stack.drop ((2 : Byte).toNat - 1)).any (·.broken) = true
      ∧ frozen.oc.mode = .fenced ∧ frozen.oc.fence = .frozen ∧ (atWork .online .opening [level1]).oc.op ≠ .idle
      ∧ ¬((atWork .suspect .idle []).oc.mode = .online) := by decide +kernel

theorem witness_SettlingEnds :
    let s := restoring .online .settling .rollback .header
    s.running ∧ s.re.stage = .settling ∧ (∀ c ∈ s.ce.contexts, c = none) ∧ (∀ e ∈ s.hq.entries, e.cls ≠ .track)
      ∧ s.hq.read = none ∧ (s.oc.stack.drop (s.re.target - 1)).any (·.broken) = false ∧ s.re.abortRequested = false
      ∧ ([{ level1 with broken := true }].drop (1 - 1)).any (·.broken) = true := by decide +kernel

theorem witness_SettlingEnds_goesOn :
    let e := entry 30 0x00100040#32 .track 4 .free true true
    let s := holding (restoring .online .settling .rollback .header) [e]
    (online [level1]).re.stage ≠ .settling ∧ e ∈ s.hq.entries ∧ e.cls = .track := by decide +kernel

theorem witness_ReplayHandlesSlot :
    let s (handling : Handling) := restoring .online .replaying .rollback handling
    let inner := { s .header with oc := { (s .header).oc with stack := [level1, level1] } }
    (s .header).running ∧ (s .header).re.stage = .replaying ∧ (s .header).re.purpose = .rollback
      ∧ (s .header).lc = ring ∧ (s .header).log.slots = 64 ∧ (s .header).re.cursor = 10
      ∧ (s .header).oc.stack = [level1] ∧ level1.start = some (s .header).re.cursor ∧ level1.serial = 5
      ∧ (s .header).re.targetSerial.toNat ≤ level1.serial.toNat ∧ (s .header).re.target = 1
      ∧ (s .header).re.abortRequested = false ∧ (s .header).oc.innermost = 5
      ∧ (s .header).restorable 0x00100040#32 = true ∧ (s .header).restorable 0x00300000#32 = false
      ∧ (4 : Word32).toNat < (s .header).re.targetSerial.toNat ∧ (s .header).atStartSlot = true
      ∧ (carrying (s .header) .re 0 4).endsWith .re (.okay (recordAt10 .open_))
      ∧ ({ inner.re with target := 2, fromFreeze := true } : RestoreEngine).target = [level1].length + 1
      ∧ inner.oc.stack = [level1] ++ [level1] ∧ inner.re.target < [level1].length + 1
      ∧ ({ s .header with oc := { (s .header).oc with stack := [levelAt 5 9] } } : State).atStartSlot = false
      ∧ (carrying (s .header) .re 0 4).endsWith .re (.okay undoAt10)
      ∧ (carrying (s .header) .re 3 4).endsWith .re (.failed .busy)
      ∧ (s (.restore 0x00100040#32 9)).re.handling = .restore 0x00100040#32 9 := by
  simp only [endsWith_iff]; decide +kernel

set_option maxRecDepth 40000 in
/-- The target's start slot, of a rollback from a freeze: the level is popped, ROLLED_BACK raised, and the part is
ONLINE with its timer running (R125, R127). -/
theorem test_rollback_leaves_freeze :
    let s := restoring .online .replaying .rollback .header
    let frozen : State := { s with
      oc := { s.oc with mode := .fenced, fence := .frozen, stack := [levelAt 4 9, level1] }
      opts := { s.opts with rotationPeriod := 7 }
      re := { s.re with target := 2, fromFreeze := true } }
    let t := after (.replayReadComplete (.okay (recordAt10 .open_))) (carrying frozen .re 0 4)
    t.oc.mode = .online ∧ t.oc.fence = .none ∧ t.oc.timer = some 7 ∧ t.oc.stack = [levelAt 4 9] ∧ t.oc.op = .idle
      ∧ t.eq.records.map EventRecord.kind = [.rolledBack] := by decide +kernel

theorem witness_AbortResumeDiscard :
    let s (m : Mode) (op : OpState) (stage : Stage) (target : Nat) (stack : List Level) : State :=
      inFrame { atWork m op stack with re := { RestoreEngine.reset with stage, target } }
    let broken : Level := { level1 with broken := true }
    (s .online .rolling .replaying 1 [level1]).linked ∧ (s .online .rolling .replaying 1 [level1]).oc.op = .rolling
      ∧ (s .recovering .idle .scanning 1 []).re.stage ≠ .halted
      ∧ (s .online .rolling .anchoring 1 []).re.stage = .anchoring
      ∧ (s .online .idle .idle 1 []).oc.op ≠ .halted ∧ (s .recovering .idle .halted 1 []).re.stage = .halted
      ∧ (s .online .halted .halted 1 [level1]).oc.stack = [level1]
      ∧ ((s .online .halted .halted 1 [broken]).oc.stack.drop (1 - 1)).any (·.broken) = true
      ∧ (s .online .halted .halted 3 [broken, level1, level1, level1]).oc.op = .halted
      ∧ (s .online .halted .halted 3 [broken, level1, level1, level1]).re.stage = .halted
      ∧ (s .online .halted .halted 3 [broken, level1, level1, level1]).oc.stack = [broken, level1] ++ [level1, level1]
      ∧ (s .online .halted .halted 3 [broken, level1, level1, level1]).re.target = [broken, level1].length + 1
      ∧ (s .online .halted .halted 1 [level1, level1]).oc.stack = [] ++ [level1, level1]
      ∧ (s .online .halted .halted 1 [level1, level1]).re.target = ([] : List Level).length + 1 := by decide +kernel

/-- RESUME after a DETACH accepted over a halted recovery: the stage moves on, the engine asks for nothing, and the
detach still completes (R149, R150, log 34). -/
theorem test_resume_over_detach :
    let halted := inFrame { atWork .recovering .idle [] with re := { RestoreEngine.reset with stage := .halted } }
    let detaching := after .detach halted
    let t := after .resume (inFrame detaching)
    detaching.re.stage = .halted ∧ t.re.stage = .scanning ∧ t.oc.mode = .recovering ∧ t.stands .re = false
      ∧ (after .detachComplete t).oc.mode = .offline := by decide +kernel

/-- A DISCARD of two levels that leaves two, one of them broken: the other breaks with its event, then DISCARDED
(R132). -/
theorem test_discard_two_levels :
    let s := atWork .online .halted [{ level1 with broken := true }, levelAt 6 11, levelAt 7 12, levelAt 8 13]
    let halted : State := { s with
      cf := [{ block := 0x00100040#32, level := 2, way := 0 }, { block := 0x00100080#32, level := 3, way := 0 }]
      re := { RestoreEngine.reset with stage := .halted, target := 3, targetSerial := 7, haltCondition := .badCheck } }
    let t := after .discard (inFrame halted)
    t.oc.stack.map (fun l => (l.serial, l.broken)) = [(5, true), (6, true)] ∧ t.oc.stamp = 6 ∧ t.oc.op = .idle
      ∧ t.cf = [{ block := 0x00100040#32, level := 2, way := 0 }] ∧ t.link.result.code = .ok
      ∧ t.eq.records =
          [{ kind := .epochBroken, level := 2, condition := .badCheck, serial := 6, argument := 0 },
           { kind := .discarded, level := 3, condition := .badCheck, serial := 7, argument := 2 }] := by decide +kernel

theorem witness_GrantAndReissue :
    let e := entry 30 0x00100000#32 .track 0 .free true false
    let p : PendingRead := { addr := 0x00300000#32, isBlock := true, cls := .pass }
    let s := holding (online [level1]) [e]
    let waiting : State := { s with dp := { port := none, fairness := 4, calm := false } }
    let reading : State := { online [] with
      hq := { HoldQueue.reset with read := some p }, dp := { port := none, fairness := 0, calm := false } }
    let writing : State := { online [] with lc := { ring with writes := [.anchor .commit] } }
    s.running ∧ (carrying s .masterRead 0 4).dp.port.isSome = true ∧ waiting.dp.calm = false
      ∧ waiting.stands .masterPath = true ∧ waiting.dp.fairness = 4 ∧ waiting.stands .lc = false ∧ s.dp.calm = true
      ∧ s.dp.port = none ∧ s.arbitrate .masterPath = some .masterPath ∧ s.oldestEligible [] s.hq.entries = some e
      ∧ reading.arbitrate .lc = some .masterPath ∧ reading.oldestEligible [] reading.hq.entries = none
      ∧ reading.hq.read = some p ∧ writing.arbitrate .lc = some .lc ∧ writing.lc.writes = [.anchor .commit]
      ∧ (carrying s .re 2 4).dp.port.map (fun a => decide (a.failures + 1 < a.limit)) = some true
      ∧ (carrying s .re 3 4).dp.port.map (fun a => decide (a.limit ≤ a.failures + 1)) = some true := by decide +kernel

theorem witness_LogAndRestoreGrants :
    let marker := { marking .openMarker [level1] none with
      lc := { (marking .openMarker [level1] none).lc with writes := [.openHeader 11] } }
    let attach := { atWork .attaching .idle [] with lc := { ring with attachRead := .anchorA } }
    let replay := restoring .online .replaying .rollback .header
    marker.running ∧ marker.dp.port = none ∧ marker.arbitrate .lc = some .lc
      ∧ marker.lc.reservation 11 = some (reserved 11 51 .marker .pending none) ∧ marker.lc.writes = [.openHeader 11]
      ∧ attach.arbitrate .lc = some .lc ∧ attach.lc.writes = [] ∧ attach.lc.attachRead = .anchorA
      ∧ replay.arbitrate .re = some .re ∧ replay.re.handling = .header
      ∧ (capturing .reading).arbitrate .ce = some .ce
      ∧ (capturing .reading).ce.contexts[0]? = some (some (context 0x00100040#32 11 .reading))
      ∧ (∀ j : Fin 4, j.1 ≠ 0 → (capturing .reading).ce.contexts[j.1]? = some none) := by decide +kernel

/-- At work at depth 2, with a write and a filter entry. -/
def working : State :=
  holding { online [levelAt 4 9, level1] with cf := [{ block := 0x00100040#32, level := 1, way := 3 }] }
    [entry 30 0x00100000#32 .track 5 .notConsidered true false]

/-! The invariants hold at reset and of a part at work, so that their steps have something to keep. -/

theorem witness_QueuesBoundedAnswersCounted : ∀ s ∈ [State.reset, working],
    s.queuesBounded ∧ s.answersCounted ∧ s.frameFits := by
  intro s h
  refine ⟨?_, ?_, ?_⟩ <;> revert s h <;> decide +kernel

theorem witness_MapStaysDisjoint : ∀ s ∈ [State.reset, working], s.mapDisjoint := by decide +kernel

theorem witness_StepsEndQuiet : ∀ s ∈ [State.reset, working], s.quiet := by decide +kernel

theorem witness_ModesStayOrderly : ∀ s ∈ [State.reset, working], s.orderly := by
  intro s h
  refine ⟨⟨?_, ?_, ?_, ?_, ?_⟩, ?_, ?_, ?_, ?_, ?_, ?_⟩ <;> revert s h <;> decide +kernel

theorem working_orderly : working.orderly := witness_ModesStayOrderly working (.tail _ (.head _))

theorem witness_RingStaysBounded : working.orderly ∧ working.ringBounded := ⟨working_orderly, by decide +kernel⟩

theorem working_operationFits : working.operationFits :=
  ⟨by decide +kernel, (by decide +kernel : ∀ x ∈ working.oc.stack, x.durable = true), by decide +kernel,
    by decide +kernel, fun o h => absurd h (List.not_mem_nil (a := o)), by decide +kernel,
    fun r h => absurd h (List.not_mem_nil (a := r))⟩

theorem witness_FilterStaysOrderly :
    working.filterOrderly ∧ working.orderly ∧ working.stackOrdered ∧ working.operationFits
      ∧ working.filterLevelsFit := by
  refine ⟨by decide +kernel, working_orderly, by decide +kernel, working_operationFits, fun e h => ?_⟩
  obtain rfl : e = { block := 0x00100040#32, level := 1, way := 3 } := by revert e h; decide +kernel
  exact ⟨by decide, levelAt 4 9, rfl, rfl⟩

/-- At work, and an OPEN at its marker: the operation fits its phase, its level alone is not durable, its marker is
due. -/
theorem witness_EpochStackStaysOrdered :
    let s := marking .openMarker [level1, { levelAt 6 11 with durable := false }] none
    let opening : State := { s with
      lc := { s.lc with nextSerial := 7, reservations := [{ reserved 11 51 .marker .pending none with level := 2 }] } }
    working.orderly ∧ working.stackOrdered ∧ working.operationFits ∧ opening.stackOrdered ∧ opening.operationFits :=
  ⟨working_orderly, by decide +kernel, working_operationFits, by decide +kernel,
    ⟨by decide +kernel, ⟨[level1], { levelAt 6 11 with durable := false }, rfl, rfl, by decide +kernel⟩,
      by decide +kernel, by decide +kernel, fun o h => absurd h (List.not_mem_nil (a := o)), by decide +kernel,
      fun r h => .inl ⟨rfl, by revert r h; decide +kernel⟩⟩⟩

theorem witness_StallsStayJustified :
    working.orderly ∧ State.reset.stallsJustified ∧ working.stallsJustified
      ∧ treatment .attaching .idle (working.classify (.readBlock 0x00100000#32)) false = .stall :=
  ⟨working_orderly, trivial, trivial, by decide +kernel⟩

end Sys2Proof.Tests
end

/-! SUPPORT. The memory path: what SETWIN and CLRWIN check and do, and what becomes of a request that is refused. -/

namespace Sys2Proof.Machine

/-! ## The checks of SETWIN, as statements on its arguments -/

theorem pageAligned_iff (w : Word32) : pageAligned w = true ↔ w.toNat % 0x1000 = 0 := by
  simp [pageAligned]

theorem windowMode_isSome_iff (m : Byte) : (windowMode m).isSome = true ↔ m = 0x00 ∨ m = 0x01 := by
  by_cases h0 : m = 0x00
  · subst h0; decide
  · by_cases h1 : m = 0x01
    · subst h1; decide
    · simp only [windowMode, h0, h1, if_false, Option.isSome_none, Bool.false_eq_true, or_self]

theorem windowMode_of_code {m : Byte} (h : m = 0x00 ∨ m = 0x01) :
    windowMode m = some (if m = 0x01 then .track else .pass) := by
  rcases h with rfl | rfl <;> decide

theorem State.apartFromLog_iff (s : State) (lo hi : Nat) :
    s.apartFromLog lo hi = true ↔ s.log.slots = 0 ∨ hi ≤ s.log.base.toNat ∨ s.log.areaEnd ≤ lo := by
  simp [State.apartFromLog, rangesApart]

/-- The arguments of a SETWIN fit the table of R7: every check but the one of the mode passes
(`setwinChecks_tail_pass_iff`). -/
def State.windowFits (s : State) (i : Byte) (base limit : Word32) (m : Byte) : Prop :=
  i.toNat < 8 ∧ (m = 0x00 ∨ m = 0x01) ∧ base.toNat % 0x1000 = 0 ∧ limit.toNat % 0x1000 = 0
    ∧ base.toNat < limitOf limit
    ∧ (∀ j w, s.windows[j]? = some w → w.valid = true → j ≠ i.toNat →
        limitOf limit ≤ w.base.toNat ∨ w.limit.toNat ≤ base.toNat)
    ∧ (s.log.slots = 0 ∨ limitOf limit ≤ s.log.base.toNat ∨ s.log.areaEnd ≤ base.toNat)

section
variable {s : State} {i : Byte} {base limit : Word32} {m : Byte}

/-- The checks after the one of the mode pass exactly where the arguments fit. -/
theorem State.setwinChecks_tail_pass_iff :
    (∀ p ∈ (s.setwinChecks i base limit m).tail, p.1 = true) ↔ s.windowFits i base limit m := by
  simp [State.setwinChecks, State.windowFits, windowMode_isSome_iff, pageAligned_iff, State.apartFromWindows_iff,
    State.apartFromLog_iff, @eq_comm Nat i.toNat]

theorem State.setwinChecks_tail_code : ∀ p ∈ (s.setwinChecks i base limit m).tail, p.2 = .arg := by
  simp [State.setwinChecks]

theorem State.firstFailure_setwinChecks_of_not_offline (hm : s.oc.mode ≠ .offline) :
    firstFailure (s.setwinChecks i base limit m) = some .state := by
  simp [State.setwinChecks, firstFailure, hm]

/-- In OFFLINE the first check passes, and the others decide. -/
theorem State.firstFailure_setwinChecks_of_offline (hm : s.oc.mode = .offline) :
    firstFailure (s.setwinChecks i base limit m) = firstFailure (s.setwinChecks i base limit m).tail := by
  conv_lhs => unfold State.setwinChecks
  rw [firstFailure, if_pos (decide_eq_true hm)]
  rfl

theorem State.firstFailure_setwinChecks_of_not_fits (hm : s.oc.mode = .offline)
    (hf : ¬s.windowFits i base limit m) : firstFailure (s.setwinChecks i base limit m) = some .arg := by
  rw [State.firstFailure_setwinChecks_of_offline hm]
  exact firstFailure_const State.setwinChecks_tail_code (mt State.setwinChecks_tail_pass_iff.mp hf)

theorem State.firstFailure_setwinChecks_of_fits (hm : s.oc.mode = .offline) (hf : s.windowFits i base limit m) :
    firstFailure (s.setwinChecks i base limit m) = none := by
  rw [State.firstFailure_setwinChecks_of_offline hm]
  exact firstFailure_eq_none.mpr (State.setwinChecks_tail_pass_iff.mpr hf)

/-! ## What SETWIN does -/

/-- A failing check is answered, and the result alone changes. -/
theorem exec_setwin_of_failure {code : ResultCode} (hl : s.linked)
    (h : firstFailure (s.setwinChecks i base limit m) = some code) :
    exec (.setwin i base limit m) s = .next { s with link := s.link.showing code [] } := by
  have hr : State.setwin i base limit m s = .refuse code := by simp only [State.setwin, h]
  exact query_refuse hl hr

/-- Every check passing, the window at the index is replaced whole. -/
theorem exec_setwin_of_fits (hl : s.linked) (hm : s.oc.mode = .offline) (hf : s.windowFits i base limit m) :
    exec (.setwin i base limit m) s = .next { s with
      windows := s.windows.set i.toNat
        { valid := true, base := base, limit := BitVec.ofNat 33 (limitOf limit),
          mode := if m = 0x01 then .track else .pass }
      link := s.link.showing .ok [] } := by
  have ⟨_, hcode, _⟩ := hf
  have hd : State.setwin i base limit m s = .done .ok [] (s.setWindow i.toNat
      { valid := true, base := base, limit := BitVec.ofNat 33 (limitOf limit),
        mode := if m = 0x01 then .track else .pass }) := by
    simp only [State.setwin, State.firstFailure_setwinChecks_of_fits hm hf, windowMode_of_code hcode]
  exact query_done hl hd

/-! ## What CLRWIN does -/

theorem exec_clrwin_of_failure {code : ResultCode} (hl : s.linked)
    (h : firstFailure (s.clrwinChecks i) = some code) :
    exec (.clrwin i) s = .next { s with link := s.link.showing code [] } := by
  have hr : State.clrwin i s = .refuse code := by simp only [State.clrwin, h]
  exact query_refuse hl hr

theorem exec_clrwin_of_pass (hl : s.linked) (h : firstFailure (s.clrwinChecks i) = none) :
    exec (.clrwin i) s = .next { s with
      windows := s.windows.set i.toNat Window.reset, link := s.link.showing .ok [] } := by
  have hd : State.clrwin i s = .done .ok [] (s.setWindow i.toNat Window.reset) := by simp only [State.clrwin, h]
  exact query_done hl hd

theorem State.firstFailure_clrwinChecks :
    firstFailure (s.clrwinChecks i) =
      if s.oc.mode ≠ .offline then some .state else if 8 ≤ i.toNat then some .arg else none := by
  by_cases hm : s.oc.mode = .offline <;> by_cases hi : i.toNat < 8 <;>
    simp [State.clrwinChecks, firstFailure, hm, hi]

end

/-- Settles O10, a case of R7's table and of R8's for each clause: the mode's check first, then the others, which all
answer ARG. -/
theorem windowCommandsChecked : Obligations.WindowCommandsChecked := by
  intro s i base limit m hl fits
  refine ⟨fun hm => ⟨?_, ?_⟩, fun hm hf => ?_, fun hm hf => ?_, fun hm hi => ?_, fun hm hi => ?_⟩
  · exact exec_setwin_of_failure hl (State.firstFailure_setwinChecks_of_not_offline hm)
  · exact exec_clrwin_of_failure hl (by simp [State.firstFailure_clrwinChecks, hm])
  · exact exec_setwin_of_failure hl (State.firstFailure_setwinChecks_of_not_fits hm hf)
  · exact exec_setwin_of_fits hl hm hf
  · exact exec_clrwin_of_failure hl (by simp [State.firstFailure_clrwinChecks, hm, hi])
  · exact exec_clrwin_of_pass hl (by simp [State.firstFailure_clrwinChecks, hm, hi])

/-! ## A request that is refused, and a BAD one (R5, R12) -/

/-- With no request stalled, what follows at once ends order waits and withdraws the master path's request, no more. -/
theorem finish_onlyChanges_of_unstalled {before after : State} (h : after.up.unstalled) :
    OnlyChanges [.ce, .fairness, .calm] after (finish before after) := by
  unfold finish
  rw [redecide_unstalled h]
  intro p hp
  cases p
  case ce | fairness | calm => simp at hp
  all_goals rfl

/-- The request presented at an IDLE port has been received and answered ERROR. -/
def State.refusing (s : State) : State :=
  { s with up := { state := .idle, received := s.up.received + 1, answers := s.up.answers ++ [Response.error] } }

theorem State.refusing_unstalled (s : State) : s.refusing.up.unstalled := fun _ _ h => by cases h

theorem State.refusing_onlyChanges (s : State) : OnlyChanges [.up] s s.refusing := by
  intro p hp
  cases p
  case up => simp at hp
  all_goals rfl

/-- Where the treatment of a request's class is refuse, it is received and answered in the same step (R12). -/
theorem State.receive_of_refuse {s : State} {r : MemRequest} (hi : s.up.state = .idle)
    (ht : treatment s.oc.mode s.oc.op (s.classify r) r.isWrite = .refuse) : s.receive r = some s.refusing := by
  have hd : ∀ up : UpstreamPort, ({ s with up } : State).decideRequest r = ({ s with up } : State).answer .error := by
    intro up
    have ht' : treatment s.oc.mode s.oc.op (({ s with up } : State).classify r) r.isWrite = .refuse := ht
    simp only [State.decideRequest, ht']
  simp only [State.receive, hi, hd]
  rfl

theorem exec_upstreamRequest_of_refuse {s : State} {r : MemRequest} (hrun : s.running) (hi : s.up.state = .idle)
    (ht : treatment s.oc.mode s.oc.op (s.classify r) r.isWrite = .refuse) :
    exec (.upstreamRequest r) s = .next (finish s s.refusing) :=
  claim_some hrun (State.receive_of_refuse hi ht)

/-- A refusal reaches neither the hold queue nor the downstream port's request. -/
theorem finish_refusing_onlyChanges (s : State) :
    OnlyChanges [.up, .ce, .fairness, .calm] s (finish s s.refusing) :=
  (s.refusing_onlyChanges.mono (by decide)).trans
    ((finish_onlyChanges_of_unstalled s.refusing_unstalled).mono (by decide))

theorem State.classify_of_bad {s : State} {r : MemRequest} (h : requestBad r = true) : s.classify r = .bad := if_pos h

/-- Every mode and every operation state refuses a BAD request (R5). -/
theorem State.treatment_of_bad (s : State) {r : MemRequest} (h : requestBad r = true) :
    treatment s.oc.mode s.oc.op (s.classify r) r.isWrite = .refuse := by
  rw [State.classify_of_bad h, treatment]

theorem requestBad_readWord_iff (a : Addr) : requestBad (.readWord a) = true ↔ a.toNat % 8 ≠ 0 := by
  simp [requestBad_iff, MemRequest.isBlock, MemRequest.addr]

/-- A WORD write with a mask position set is BAD for its alignment alone. -/
theorem requestBad_writeWord_iff {a : Addr} {mask : BitVec 8} {d : WordData} (hmask : mask ≠ 0) :
    requestBad (.writeWord a mask d) = true ↔ a.toNat % 8 ≠ 0 := by
  simp [requestBad_iff, MemRequest.isBlock, MemRequest.addr, show ¬mask = 0#8 from hmask]

/-- Settles O15: a BAD request's treatment is refuse in every situation, so it is answered as it is received, none is
stalled, and what follows at once cannot reach the hold queue or the port's request. -/
theorem badRequestRefused : Obligations.BadRequestRefused := by
  refine ⟨fun s r hrun hi hb => ?_, requestBad_readWord_iff, fun a d => requestBad_writeWord_iff (by decide)⟩
  have hexec : exec (.upstreamRequest r) s = .next (finish s s.refusing) :=
    exec_upstreamRequest_of_refuse hrun hi (s.treatment_of_bad hb)
  have hup : (finish s s.refusing).up = s.refusing.up := finish_up_of_unstalled s.refusing_unstalled
  exact ⟨finish s s.refusing, none, hexec, hup, finish_refusing_onlyChanges s⟩

end Sys2Proof.Machine

/-! SUPPORT. The undo log: what SETLOG checks and does. -/

namespace Sys2Proof.Machine

/-! ## The checks of SETLOG, as statements on its arguments -/

theorem firstFailure_cons_of_fails {ok : Bool} {code : ResultCode} {l : List (Bool × ResultCode)} (h : ok = false) :
    firstFailure ((ok, code) :: l) = some code := by
  subst h; rfl

theorem firstFailure_cons_of_passes {ok : Bool} {code : ResultCode} {l : List (Bool × ResultCode)} (h : ok = true) :
    firstFailure ((ok, code) :: l) = firstFailure l := by
  subst h; rfl

/-- No window excepted, a range apart is apart from every valid window, wherever in the list it stands. -/
theorem State.apartFromWindows_none_iff (s : State) (lo hi : Nat) :
    s.apartFromWindows none lo hi = true ↔
      ∀ w ∈ s.windows, w.valid = true → hi ≤ w.base.toNat ∨ w.limit.toNat ≤ lo := by
  rw [State.apartFromWindows_iff]
  constructor
  · intro h w hw hv
    obtain ⟨j, hj⟩ := List.mem_iff_getElem?.mp hw
    exact h j w hj hv (Option.some_ne_none j).symm
  · intro h j w hj hv _
    exact h w (List.mem_of_getElem? hj) hv

/-- The arguments of a SETLOG fit the table of R19: every check but the one of the mode passes
(`setlogChecks_tail_pass_iff`). -/
def State.logFits (s : State) (base slots : Word32) : Prop :=
  base.toNat % 0x1000 = 0 ∧ 64 ≤ slots.toNat ∧ slots.toNat ≤ 1048576 ∧ areaEndOf base slots ≤ 0x100000000
    ∧ (∀ w ∈ s.windows, w.valid = true → areaEndOf base slots ≤ w.base.toNat ∨ w.limit.toNat ≤ base.toNat)
    ∧ (s.opts.highWater = 0 ∨ s.opts.highWater ≤ slots.toNat)

section
variable {s : State} {base slots : Word32}

/-- The checks after the one of the mode pass exactly where the arguments fit. -/
theorem State.setlogChecks_tail_pass_iff :
    (∀ p ∈ (s.setlogChecks base slots).tail, p.1 = true) ↔ s.logFits base slots := by
  simp [State.setlogChecks, State.logFits, pageAligned_iff, State.apartFromWindows_none_iff, and_assoc]

theorem State.setlogChecks_tail_code : ∀ p ∈ (s.setlogChecks base slots).tail, p.2 = .arg := by
  simp [State.setlogChecks]

theorem State.firstFailure_setlogChecks_of_not_offline (hm : s.oc.mode ≠ .offline) :
    firstFailure (s.setlogChecks base slots) = some .state :=
  firstFailure_cons_of_fails (decide_eq_false hm)

/-- In OFFLINE the first check passes, and the others decide. -/
theorem State.firstFailure_setlogChecks_of_offline (hm : s.oc.mode = .offline) :
    firstFailure (s.setlogChecks base slots) = firstFailure (s.setlogChecks base slots).tail :=
  firstFailure_cons_of_passes (decide_eq_true hm)

theorem State.firstFailure_setlogChecks_of_not_fits (hm : s.oc.mode = .offline) (hf : ¬s.logFits base slots) :
    firstFailure (s.setlogChecks base slots) = some .arg := by
  rw [State.firstFailure_setlogChecks_of_offline hm]
  exact firstFailure_const State.setlogChecks_tail_code (mt State.setlogChecks_tail_pass_iff.mp hf)

theorem State.firstFailure_setlogChecks_of_fits (hm : s.oc.mode = .offline) (hf : s.logFits base slots) :
    firstFailure (s.setlogChecks base slots) = none := by
  rw [State.firstFailure_setlogChecks_of_offline hm]
  exact firstFailure_eq_none.mpr (State.setlogChecks_tail_pass_iff.mpr hf)

/-! ## What SETLOG does -/

/-- A failing check is answered, and the result alone changes. -/
theorem exec_setlog_of_failure {code : ResultCode} (hl : s.linked)
    (h : firstFailure (s.setlogChecks base slots) = some code) :
    exec (.setlog base slots) s = .next { s with link := s.link.showing code [] } := by
  have hr : State.setlog base slots s = .refuse code := by simp only [State.setlog, h]
  exact query_refuse hl hr

/-- Every check passing, the configuration is replaced and the ring state stands as after a pin reset (R26). -/
theorem exec_setlog_of_pass (hl : s.linked) (h : firstFailure (s.setlogChecks base slots) = none) :
    exec (.setlog base slots) s = .next { s with
      log := { base := base, slots := slots.toNat }, lc := State.reset.lc, link := s.link.showing .ok [] } := by
  have hd : State.setlog base slots s =
      .done .ok [] { s with log := { base := base, slots := slots.toNat }, lc := LogState.reset } := by
    simp only [State.setlog, h]
  exact query_done hl hd

end

/-- Settles O11: the mode's check is the first and alone answers STATE; the others all answer ARG, and pass together
exactly where the arguments fit R19's table. -/
theorem setlogChecked : Obligations.SetlogChecked := by
  intro s base slots hl areaEnd fits
  refine ⟨fun hm => ?_, fun hm hf => ?_, fun hm hf => ?_⟩
  · exact exec_setlog_of_failure hl (State.firstFailure_setlogChecks_of_not_offline hm)
  · exact exec_setlog_of_failure hl (State.firstFailure_setlogChecks_of_not_fits hm hf)
  · exact exec_setlog_of_pass hl (State.firstFailure_setlogChecks_of_fits hm hf)

end Sys2Proof.Machine

/-! SUPPORT. The management link: the event queue a record arrives at, what EVENT takes from it, and ATTN. -/

namespace Sys2Proof.Machine

/-! ## A record that arrives (R183) -/

theorem EventQueue.push_of_room {q : EventQueue} (e : EventRecord) (h : q.records.length < 16) :
    q.push e = { q with records := q.records ++ [e] } :=
  if_pos h

theorem EventQueue.push_of_full {q : EventQueue} (e : EventRecord) (h : 16 ≤ q.records.length) :
    q.push e = { q with lost := if q.lost < 255 then q.lost + 1 else 255 } := by
  have hcount : min 255 (q.lost + 1) = if q.lost < 255 then q.lost + 1 else 255 := by split <;> omega
  rw [← hcount]
  exact if_neg (Nat.not_lt.mpr h)

/-- Appended or dropped, a record leaves the queue holding one: only a full queue drops. -/
theorem EventQueue.push_records_ne_nil (q : EventQueue) (e : EventRecord) : (q.push e).records ≠ [] := by
  rcases Nat.lt_or_ge q.records.length 16 with hroom | hfull
  · rw [EventQueue.push_of_room e hroom]
    exact List.append_ne_nil_of_right_ne_nil _ (List.cons_ne_nil e [])
  · rw [EventQueue.push_of_full e hfull]
    exact List.ne_nil_of_length_pos (Nat.lt_of_lt_of_le (by decide) hfull)

/-! ## ATTN reads the queue's records and RESETn alone (R186) -/

theorem State.attn_iff (s : State) : s.attn = true ↔ s.resetLow = false ∧ s.eq.records ≠ [] := by
  simp [State.attn]

theorem State.attn_eq_false_of_resetLow {s : State} (h : s.resetLow = true) : s.attn = false := by
  simp [State.attn, h]

theorem State.attn_eq_false_of_empty {s : State} (h : s.eq.records = []) : s.attn = false := by
  simp [State.attn, h]

theorem State.attn_congr {s t : State} (hr : t.resetLow = s.resetLow) (he : t.eq.records = s.eq.records) :
    t.attn = s.attn := by
  simp only [State.attn, hr, he]

/-! ## What EVENT takes (R185) -/

/-- The oldest record leaves the queue, and its bytes are the result. -/
theorem exec_event_of_cons {s : State} {e : EventRecord} {rest : List EventRecord} (hl : s.linked)
    (h : s.eq.records = e :: rest) :
    exec .event s = .next (({ s with eq := { s.eq with records := rest } } : State).setResult .ok e.bytes) := by
  have hd : s.readEvent = .done .ok e.bytes { s with eq := { s.eq with records := rest } } := by
    simp only [State.readEvent, h]
  exact query_done hl hd

/-- Settles O9: ATTN is decided by the records and by RESETn, so a record that arrives raises it, the lost-event count
leaves it alone, and the EVENT that takes the last record, or a pin reset, ends it. -/
theorem attnFollowsEventQueue : Obligations.AttnFollowsEventQueue := by
  intro s e
  refine ⟨EventQueue.push_of_room e, EventQueue.push_of_full e, s.attn_iff, fun hrun => ?_,
    fun n => State.attn_congr rfl rfl, fun hl hlast => ?_, ?_⟩
  · exact (State.attn_iff _).mpr ⟨hrun, s.eq.push_records_ne_nil e⟩
  · exact ⟨_, exec_event_of_cons hl hlast, State.attn_eq_false_of_empty rfl⟩
  · exact ⟨_, rfl, State.attn_eq_false_of_resetLow rfl⟩

end Sys2Proof.Machine

/-! SUPPORT. The address map: windows and log area stay in range and apart, whatever the part does. -/

namespace Sys2Proof.Machine

/-! ## One window replaced -/

/-- A symmetric relation that holds of every two entries, and of the new entry and each other one, holds once the new
entry stands in its place. -/
theorem pairwise_set {α : Type} {R : α → α → Prop} (hsymm : ∀ {a b}, R a b → R b a) {l : List α} {i : Nat} {w : α}
    (hl : l.Pairwise R) (hw : ∀ j x, l[j]? = some x → j ≠ i → R w x) : (l.set i w).Pairwise R := by
  rw [List.pairwise_iff_getElem] at hl ⊢
  intro a b ha hb hab
  rw [List.length_set] at ha hb
  rw [List.getElem_set, List.getElem_set]
  by_cases hia : i = a
  · rw [if_pos hia, if_neg (by omega)]
    exact hw b _ (List.getElem?_eq_getElem hb) (by omega)
  · by_cases hib : i = b
    · rw [if_neg hia, if_pos hib]
      exact hsymm (hw a _ (List.getElem?_eq_getElem ha) (by omega))
    · rw [if_neg hia, if_neg hib]
      exact hl a b ha hb hab

theorem Window.apart_symm {w x : Window} (h : w.apart x) : x.apart w :=
  fun hx hw => (h hw hx).symm

/-- The map reads the windows and the log configuration alone. -/
theorem State.mapDisjoint_congr {s t : State} (hw : t.windows = s.windows) (hg : t.log = s.log)
    (h : s.mapDisjoint) : t.mapDisjoint := by
  unfold State.mapDisjoint at h ⊢
  rw [hw, hg]
  exact h

/-- A window that fits beside the others may take the place of the one at its index. -/
theorem State.mapDisjoint_set {s t : State} (h : s.mapDisjoint) (i : Nat) (w : Window) (hwf : w.wellFormed)
    (hap : ∀ j x, s.windows[j]? = some x → j ≠ i → w.apart x) (hlog : w.apartFrom s.log)
    (hw : t.windows = s.windows.set i w) (hg : t.log = s.log) : t.mapDisjoint := by
  obtain ⟨hlen, hall, hpair, hcfg, hfrom⟩ := h
  unfold State.mapDisjoint
  rw [hw, hg]
  refine ⟨by rw [List.length_set]; exact hlen, fun x hx => ?_, pairwise_set Window.apart_symm hpair hap, hcfg,
    fun x hx => ?_⟩
  · rcases List.mem_or_eq_of_mem_set hx with hx | rfl
    · exact hall x hx
    · exact hwf
  · rcases List.mem_or_eq_of_mem_set hx with hx | rfl
    · exact hfrom x hx
    · exact hlog

/-! ## The three commands that change the map -/

theorem limitOf_le (limit : Word32) : limitOf limit ≤ 0x100000000 := by
  unfold limitOf
  split
  · exact Nat.le_refl _
  · exact Nat.le_of_lt limit.isLt

/-- A limit fits the 33 bits of its field. -/
theorem toNat_limitOf (limit : Word32) : (BitVec.ofNat 33 (limitOf limit)).toNat = limitOf limit := by
  have := limitOf_le limit
  rw [BitVec.toNat_ofNat]
  exact Nat.mod_eq_of_lt (by omega)

theorem limitOf_page {limit : Word32} (h : limit.toNat % 0x1000 = 0) : limitOf limit % 0x1000 = 0 := by
  unfold limitOf
  split
  · decide
  · exact h

/-- SETWIN takes a window only where its arguments fit, and puts it at the index. -/
theorem State.setwin_leaves {s t : State} {i : Byte} {base limit : Word32} {m : Byte}
    (h : (s.setwin i base limit m).leaves t) :
    s.windowFits i base limit m ∧ ∃ mode, t = s.setWindow i.toNat
      { valid := true, base := base, limit := BitVec.ofNat 33 (limitOf limit), mode } := by
  unfold State.setwin at h
  split at h
  · simp [Reply.leaves_refuse] at h
  · rename_i hpass
    split at h
    · simp [Reply.leaves_refuse] at h
    · rw [Reply.leaves_done] at h
      exact ⟨State.setwinChecks_tail_pass_iff.mp fun p hp => firstFailure_eq_none.mp hpass p (List.mem_of_mem_tail hp),
        _, h.symm⟩

theorem State.setwin_keeps_mapDisjoint {s t : State} {i : Byte} {base limit : Word32} {m : Byte} (hs : s.mapDisjoint)
    (h : (s.setwin i base limit m).leaves t) : t.mapDisjoint := by
  obtain ⟨⟨-, -, hbase, hlimit, hlt, hother, hlog⟩, mode, rfl⟩ := State.setwin_leaves h
  have hval := toNat_limitOf limit
  refine State.mapDisjoint_set hs i.toNat _ (fun _ => ?_) (fun j x hj hne _ hx => ?_) (fun _ => ?_) rfl rfl
  · simp only [hval]
    exact ⟨hbase, limitOf_page hlimit, hlt, limitOf_le limit⟩
  · simp only [hval]
    exact hother j x hj hx hne
  · simp only [hval]
    exact hlog

theorem State.clrwin_keeps_mapDisjoint {s t : State} {i : Byte} (hs : s.mapDisjoint) (h : (s.clrwin i).leaves t) :
    t.mapDisjoint := by
  unfold State.clrwin at h
  split at h
  · simp [Reply.leaves_refuse] at h
  · rw [Reply.leaves_done] at h
    subst h
    have hno : ¬Window.reset.valid = true := by decide
    exact State.mapDisjoint_set hs i.toNat Window.reset (fun hv => absurd hv hno) (fun _ _ _ _ hv => absurd hv hno)
      (fun hv => absurd hv hno) rfl rfl

theorem State.setlog_keeps_mapDisjoint {s t : State} {base slots : Word32} (hs : s.mapDisjoint)
    (h : (s.setlog base slots).leaves t) : t.mapDisjoint := by
  unfold State.setlog at h
  split at h
  · simp [Reply.leaves_refuse] at h
  · rename_i hpass
    rw [Reply.leaves_done] at h
    subst h
    obtain ⟨hbase, hmin, hmax, hend, hapart, -⟩ := State.setlogChecks_tail_pass_iff.mp fun p hp =>
      firstFailure_eq_none.mp hpass p (List.mem_of_mem_tail hp)
    obtain ⟨hlen, hall, hpair, -, -⟩ := hs
    exact ⟨hlen, hall, hpair, .inr ⟨hmin, hmax, hbase, hend⟩, fun w hw hv => .inr (hapart w hw hv).symm⟩

theorem State.reset_mapDisjoint : State.reset.mapDisjoint := by decide +kernel

/-- Every command's own effect keeps the map: SETWIN, CLRWIN, SETLOG and a pin reset alone touch it. -/
theorem Does.keeps_mapDisjoint {c : Instr} {s t : State} (hs : s.mapDisjoint) (h : Does c s t) : t.mapDisjoint := by
  cases c
  case setwin => exact State.setwin_keeps_mapDisjoint hs h
  case clrwin => exact State.clrwin_keeps_mapDisjoint hs h
  case setlog => exact State.setlog_keeps_mapDisjoint hs h
  case pinReset => exact h ▸ State.mapDisjoint_congr rfl rfl State.reset_mapDisjoint
  all_goals exact State.mapDisjoint_congr (h.frame .windows (by simp [footprint])) (h.frame .log (by simp [footprint])) hs

/-- Settles O54: the clock, the queue, the link and what follows at once leave windows and log configuration as they
are, and so does every command but the three whose checks keep the map. -/
theorem mapStaysDisjoint : Obligations.MapStaysDisjoint := by
  intro s t hs hstep
  refine step_keeps (inv := State.mapDisjoint) ?queue ?link ?clock ?follow ?does hs hstep
  case queue => exact fun s p h => State.mapDisjoint_congr rfl rfl h
  case link => exact fun s l h => State.mapDisjoint_congr rfl rfl h
  case clock => exact fun s n h => State.mapDisjoint_congr rfl rfl h
  case follow => exact fun s u _ h => State.mapDisjoint_congr (finish_windows s u) (finish_log s u) h
  case does => exact fun c s u h hd => hd.keeps_mapDisjoint h

end Sys2Proof.Machine

/-! SUPPORT. What follows at once from a step, and what every step therefore leaves behind it: order waits ended, the
master path's count withdrawn, and stalled requests that the situation stalls. -/

namespace Sys2Proof.Machine

/-! ## What follows at once, read off `finish` (R14, R15, R83, R160) -/

/-- The order wait of a context ends where no older HELD write to its block is left (R83). -/
theorem Context.release_eq (c : Context) (entries : List HoldEntry) :
    c.release entries =
      if c.state = .orderWait ∧ ∀ e ∈ entries, e.issued = true ∨ e.block ≠ c.block ∨ c.trigger ≤ e.order then
        { c with state := .reading }
      else c := by
  have hcond : (entries.all fun e => !(e.held && decide (e.block = c.block) && decide (e.order < c.trigger))) = true ↔
      ∀ e ∈ entries, e.issued = true ∨ e.block ≠ c.block ∨ c.trigger ≤ e.order := by
    simp only [List.all_eq_true, HoldEntry.held, Bool.not_eq_true', Bool.and_eq_false_iff, Bool.not_eq_false',
      decide_eq_false_iff_not, Nat.not_lt, or_assoc, ne_eq]
  unfold Context.release
  simp only [hcond]

/-- A context that still waits has an older HELD write to its block before it. -/
theorem Context.release_waits {c : Context} {entries : List HoldEntry} (h : (c.release entries).state = .orderWait) :
    c.release entries = c ∧ ∃ e ∈ entries, e.issued = false ∧ e.block = c.block ∧ e.order < c.trigger := by
  rw [Context.release_eq] at h ⊢
  split at h
  · cases h
  · rename_i hcond
    rw [if_neg hcond]
    refine ⟨rfl, ?_⟩
    have hno : ¬∀ e ∈ entries, e.issued = true ∨ e.block ≠ c.block ∨ c.trigger ≤ e.order := fun hall => hcond ⟨h, hall⟩
    push Not at hno
    obtain ⟨e, he, hi, hb, ho⟩ := hno
    exact ⟨e, he, by simpa using hi, hb, ho⟩

/-- What follows at once has followed when it is over. -/
theorem finish_quiet (before after : State) : (finish before after).quiet := by
  refine ⟨fun c hc x hx hwait => ?_, fun hno => ?_⟩
  · rw [finish_contexts] at hc
    obtain ⟨c', -, rfl⟩ := List.mem_map.mp hc
    obtain ⟨y, -, rfl⟩ := Option.mem_map.mp hx
    obtain ⟨hy, hold⟩ := Context.release_waits hwait
    rw [hy]
    exact hold
  · rw [finish_fairness, hno]
    rfl

/-- In a quiet part no order wait is left to end. -/
theorem State.quiet_release {s : State} (h : s.quiet) :
    (s.ce.contexts.map fun c => c.map (·.release s.hq.entries)) = s.ce.contexts := by
  conv_rhs => rw [← List.map_id s.ce.contexts]
  refine List.map_congr_left fun c hc => ?_
  cases c with
  | none => rfl
  | some x =>
    have hx : x.release s.hq.entries = x := by
      rw [Context.release_eq, if_neg]
      rintro ⟨hwait, hall⟩
      obtain ⟨e, he, hi, hb, ho⟩ := h.1 _ hc x rfl hwait
      rcases hall e he with h' | h' | h'
      · rw [hi] at h'; cases h'
      · exact h' hb
      · omega
    simp [hx]

/-- Without a stalled request, and quiet, nothing follows but the mark of log 17. -/
theorem finish_onlyChanges_of_quiet {before after : State} (hu : after.up.unstalled) (hq : after.quiet) :
    OnlyChanges [.calm] after (finish before after) := by
  intro p hp
  cases p
  case calm => simp at hp
  case ce =>
    have hctx : (finish before after).ce.contexts = after.ce.contexts := by
      rw [finish_contexts, redecide_unstalled hu, State.quiet_release hq]
    exact CaptureEngine.ext hctx (finish_episode before after)
  case fairness =>
    have hm : (finish before after).masterStands = after.masterStands :=
      State.masterStands_congr (finish_oc before after) (finish_hq_of_unstalled hu)
    simp only [Part.same, finish_fairness, hm]
    split
    · rfl
    · rename_i hno
      exact (hq.2 (by simpa using hno)).symm
  all_goals exact finish_onlyChanges_of_unstalled hu _ (by decide)

theorem redecide_stalled {before after : State} {reason : StallReason} {r : MemRequest}
    (h : after.up.state = .stalled reason r) :
    redecide before after =
      if before.situation ≠ after.situation ∨ (reason = .queue ∧ after.hq.entries.length < before.hq.entries.length) then
        after.decideRequest r
      else after := by
  unfold redecide
  rw [h]

/-- What `finish` makes of a state in which nothing is decided again. -/
theorem finish_onlyChanges_of_undecided {before after : State} (h : redecide before after = after) :
    OnlyChanges [.ce, .fairness, .calm] after (finish before after) := by
  unfold finish
  rw [h]
  intro p hp
  cases p
  case ce | fairness | calm => simp at hp
  all_goals rfl

theorem finish_onlyChanges (before after : State) :
    OnlyChanges [.up, .hq, .ce, .fairness, .calm] after (finish before after) := by
  intro p hp
  cases p
  case up | hq | ce | fairness | calm => simp at hp
  case port => exact finish_port before after
  all_goals simp [Part.same]

/-- Settles O6: the parts of `finish` one by one, its re-decision by the stalled request's reason. -/
theorem followUpsOfAStep : Obligations.FollowUpsOfAStep := by
  intro before after
  refine ⟨finish_onlyChanges before after, finish_onlyChanges_of_unstalled, finish_onlyChanges_of_quiet,
    fun reason r hst => ?_, ?_, finish_fairness before after⟩
  · have hre := redecide_stalled (before := before) hst
    split
    · rename_i hcond
      rw [if_pos hcond] at hre
      rw [finish_up, finish_hq, hre]
      exact ⟨rfl, rfl⟩
    · rename_i hcond
      rw [if_neg hcond] at hre
      exact finish_onlyChanges_of_undecided hre
  · rw [finish_contexts]
    refine List.map_congr_left fun c _ => ?_
    exact congrArg (fun f => Option.map f c) (funext fun x => Context.release_eq x _)

/-! ## How a step ends -/

/-- A step that is neither a pin reset nor the release of RESETn changes the link alone, or ends with what follows at
once, or is a query's: it leaves requests, situation, captures and both ports alone. -/
theorem exec_ends {c : Instr} {s t : State} (h : exec c s = .next t) :
    (∃ b, c = .resetnRelease b) ∨ c = .pinReset ∨ (∃ l, t = { s with link := l })
    ∨ (∃ u l, Does c s u ∧ t = { finish s u with link := l })
    ∨ ∃ u l, Does c s u ∧ t = { u with link := l }
        ∧ OnlyChanges [.windows, .log, .lc, .opts, .eq] s u := by
  have hclaim : ∀ f : State → Option State, (∀ u, f s = some u → Does c s u) → claim f s = .next t →
      (∃ l, t = { s with link := l }) ∨ ∃ u l, Does c s u ∧ t = { finish s u with link := l } := by
    intro f hd h
    rcases claim_does h with rfl | ⟨u, hu, rfl⟩
    · exact .inl ⟨t.link, rfl⟩
    · exact .inr ⟨u, _, hd u hu, rfl⟩
  have hcommand : ∀ f : State → Reply, (∀ u, (f s).leaves u → Does c s u) → command f s = .next t →
      (∃ l, t = { s with link := l }) ∨ ∃ u l, Does c s u ∧ t = { finish s u with link := l } := by
    intro f hd h
    rcases command_does h with ⟨l, rfl⟩ | ⟨u, l, hu, rfl⟩
    · exact .inl ⟨l, rfl⟩
    · exact .inr ⟨u, l, hd u hu, rfl⟩
  have hquery : ∀ f : State → Reply, (∀ u, (f s).leaves u → Does c s u) →
      (∀ p ∈ footprint c, p ∈ [Part.windows, .log, .lc, .opts, .eq]) → query f s = .next t →
      (∃ l, t = { s with link := l })
        ∨ ∃ u l, Does c s u ∧ t = { u with link := l } ∧ OnlyChanges [.windows, .log, .lc, .opts, .eq] s u := by
    intro f hd hp h
    rcases query_does h with ⟨l, rfl⟩ | ⟨u, l, hu, rfl⟩
    · exact .inl ⟨l, rfl⟩
    · exact .inr ⟨u, l, hd u hu, rfl, (hd u hu).frame.mono hp⟩
  cases c
  case resetnRelease b => exact .inl ⟨b, rfl⟩
  case pinReset => exact .inr (.inl rfl)
  case responseToAbandonedRequest => injection h with h; exact .inr (.inr (.inl ⟨_, h.symm⟩))
  case frameBegin =>
    simp only [exec, execFrameBegin] at h
    split at h <;> injection h with h <;> exact .inr (.inr (.inl ⟨_, h.symm⟩))
  case frameError =>
    simp only [exec, execFrameError] at h
    split at h
    · injection h with h; exact .inr (.inr (.inl ⟨_, h.symm⟩))
    · split at h <;> injection h with h <;> exact .inr (.inr (.inl ⟨_, h.symm⟩))
  case nop =>
    have := hquery (fun s => .done .ok [] s) (fun u ⟨_, _, hu⟩ => by injection hu with _ _ hu; exact hu.symm)
      (by simp [footprint]) h
    exact .inr (.inr (this.imp_right .inr))
  case status =>
    have := hquery (fun s => .done .ok s.statusBlock { s with eq := { s.eq with lost := 0 } })
      (fun u ⟨_, _, hu⟩ => by injection hu with _ _ hu; exact hu.symm) (by simp [footprint]) h
    exact .inr (.inr (this.imp_right .inr))
  case attachKeep | attachFormat | recover | detach | openEpoch | commit | rotate | rollback | abort | resume |
    discard | thaw =>
    exact .inr (.inr ((hcommand _ (fun _ hu => hu) h).imp_right .inl))
  case event | level | setwin | clrwin | setlog | setoptWriteMode | setoptRetryLimit | setoptLogFullPolicy |
    setoptHighWaterMark | setoptFaultPolicy | setoptRotationPeriod | setoptUnknownOption =>
    exact .inr (.inr ((hquery _ (fun _ hu => hu) (by simp [footprint]) h).imp_right .inr))
  all_goals exact .inr (.inr ((hclaim _ (fun _ hu => hu) h).imp_right .inl))

/-! ## Every step ends quiet (R83, R160) -/

/-- Quiet reads the contexts, the hold queue, the fairness count and what bars TRACK writes from issue. -/
theorem State.quiet_congr {s t : State} (h : s.quiet) (hce : t.ce = s.ce) (hhq : t.hq = s.hq)
    (hm : t.masterStands = s.masterStands) (hf : t.dp.fairness = s.dp.fairness) : t.quiet := by
  unfold State.quiet at h ⊢
  rw [hce, hhq, hm, hf]
  exact h

theorem State.quiet_congr_oc {s t : State} (h : s.quiet) (hce : t.ce = s.ce) (hhq : t.hq = s.hq) (hoc : t.oc = s.oc)
    (hf : t.dp.fairness = s.dp.fairness) : t.quiet :=
  State.quiet_congr h hce hhq (State.masterStands_congr hoc hhq) hf

/-- The request of the master path reads, of the controller, only what bars TRACK writes from issue. -/
theorem State.masterStands_congr_barred {s t : State} (hb : t.trackBarred = s.trackBarred) (hq : t.hq = s.hq) :
    t.masterStands = s.masterStands := by
  have helig : ∀ o e, t.eligible o e = s.eligible o e := fun o e => by simp only [State.eligible, hb]
  have hold : ∀ l o, t.oldestEligible o l = s.oldestEligible o l := by
    intro l
    induction l with
    | nil => exact fun o => rfl
    | cons e rest ih => exact fun o => by simp only [State.oldestEligible, helig, ih]
  simp only [State.masterStands, State.readEligible, hq, hold]

theorem State.reset_quiet : State.reset.quiet := by
  refine ⟨fun c hc x hx => ?_, fun _ => rfl⟩
  have hc' : c ∈ List.replicate 4 (none : Option Context) := hc
  rw [List.eq_of_mem_replicate hc'] at hx
  cases hx

theorem exec_keeps_quiet {c : Instr} {s t : State} (hs : s.quiet) (h : exec c s = .next t) : t.quiet := by
  rcases exec_ends h with ⟨b, rfl⟩ | rfl | ⟨l, rfl⟩ | ⟨u, l, -, rfl⟩ | ⟨u, l, -, rfl, hu⟩
  · simp only [exec, execResetnRelease] at h
    split at h <;> injection h with h <;> subst h
    · exact State.quiet_congr hs rfl rfl (State.masterStands_congr_barred rfl rfl) rfl
    · exact hs
  · injection h with h
    subst h
    exact State.quiet_congr_oc State.reset_quiet rfl rfl rfl rfl
  · exact State.quiet_congr_oc hs rfl rfl rfl rfl
  · exact State.quiet_congr_oc (finish_quiet s u) rfl rfl rfl rfl
  · exact State.quiet_congr_oc hs (hu .ce (by decide)) (hu .hq (by decide)) (hu .oc (by decide))
      (hu .fairness (by decide))

/-- Settles O59: what follows at once from a claim or a command makes the part quiet, whatever it was; the other steps
leave what quiet speaks of as it is. -/
theorem stepsEndQuiet : Obligations.StepsEndQuiet := by
  intro s t hs h
  unfold step at h
  split at h
  · injection h with h
    subst h
    unfold State.tick
    split
    · exact hs
    · exact State.quiet_congr_oc hs rfl rfl rfl rfl
    · exact State.quiet_congr hs rfl rfl (State.masterStands_congr_barred rfl rfl) rfl
  · rename_i c rest _
    exact exec_keeps_quiet (s := { s with pending := rest }) (State.quiet_congr_oc hs rfl rfl rfl rfl) h

end Sys2Proof.Machine

/-! SUPPORT. What each claim and each command can do, said once: where its own effect occurs, the guards it passed and
the shared operations it applied. The invariants are derived from these lemmas. -/

namespace Sys2Proof.Machine

/-- The port idle, the rest of the part as it stands: what every outcome begins with (R156). -/
abbrev State.portFreed (s : State) : State := { s with dp := s.dp.freed }

theorem State.portOutcome_cases {s u : State} {r : MemReply} {o : Owner} (h : s.portOutcome r = some (o, u)) :
    s.endsWith o r ∧ u = s.portFreed := State.portOutcome_some h

section
variable {s t : State}

/-! ## The FAULT line and the fault latch -/

theorem State.assertFault_cases (h : s.assertFault = some t) :
    s.oc.faultLine = false ∧
      (t = { s with oc := { s.oc with faultLine := true } }
        ∨ t = ({ s with oc := { s.oc with faultLine := true } } : State).takeAssertion) := by
  unfold State.assertFault at h
  split at h
  · cases h
  · rename_i hline
    refine ⟨by simpa using hline, ?_⟩
    simp only at h
    split at h <;> injection h with h
    · exact .inl h.symm
    all_goals exact .inr h.symm

theorem State.deassertFault_cases (h : s.deassertFault = some t) :
    t = { s with oc := { s.oc with faultLine := false } } := by
  unfold State.deassertFault at h
  split at h
  · injection h with h
    exact h.symm
  · cases h

theorem State.takeLatch_cases (h : s.takeLatch = some t) :
    s.oc.op = .idle ∧
      (s.oc.mode = .online ∧ t = ({ s with oc := { s.oc with latch := false } } : State).actOnFault
        ∨ s.oc.mode ≠ .online ∧ t = s.dropLatch) := by
  unfold State.takeLatch at h
  split at h
  · rename_i hidle
    refine ⟨hidle.2, ?_⟩
    split at h <;> injection h with h
    · rename_i hm
      exact .inl ⟨hm, h.symm⟩
    · rename_i hm
      exact .inr ⟨hm, h.symm⟩
  · cases h

/-! ## The master's requests -/

theorem State.receive_cases {r : MemRequest} (h : s.receive r = some t) :
    s.up.state = .idle ∧
      t = ({ s with up := { s.up with state := .stalled .situation r, received := s.up.received + 1 } } :
        State).decideRequest r := by
  unfold State.receive at h
  split at h
  · rename_i hidle
    injection h with h
    exact ⟨hidle, h.symm⟩
  all_goals cases h

theorem State.readEnds_cases {r : MemReply} (h : s.readEnds r = some t) :
    s.endsWith .masterRead r ∧
      (t = s.portFreed ∨ ∃ p, s.hq.read = some p ∧
        t = ({ s.portFreed with hq := { s.hq with read := none } } : State).answer (readResponse p.isBlock r)) := by
  unfold State.readEnds at h
  split at h
  · rename_i u ho
    obtain ⟨he, rfl⟩ := State.portOutcome_cases ho
    refine ⟨he, ?_⟩
    split at h <;> injection h with h
    · exact .inr ⟨_, by assumption, h.symm⟩
    · exact .inl h.symm
  · cases h

theorem State.writeEnds_cases (h : s.writeEnds = some t) :
    ∃ order, s.endsWith (.masterWrite order) (.okay 0) ∧
      (t = s.portFreed ∨ t = { s.portFreed with hq := s.hq.remove order }
        ∨ t = ({ s.portFreed with hq := s.hq.remove order } : State).answer .okayWrite) := by
  unfold State.writeEnds at h
  split at h
  · rename_i order u ho
    obtain ⟨he, rfl⟩ := State.portOutcome_cases ho
    refine ⟨order, he, ?_⟩
    split at h <;> injection h with h
    · split at h
      · exact .inr (.inl h.symm)
      · exact .inr (.inr h.symm)
    · exact .inl h.symm
  · cases h

theorem State.writeFails_cases {f : MemFailure} (h : s.writeFails f = some t) :
    ∃ order, s.endsWith (.masterWrite order) (.failed f) ∧
      (t = s.portFreed
        ∨ (∃ e, t = ({ s.portFreed with hq := s.hq.remove order } : State).raiseWriteLost e (failureCondition f))
        ∨ t = ({ s.portFreed with hq := s.hq.remove order } : State).answer .error) := by
  unfold State.writeFails at h
  split at h
  · rename_i order u ho
    obtain ⟨he, rfl⟩ := State.portOutcome_cases ho
    refine ⟨order, he, ?_⟩
    split at h <;> injection h with h
    · split at h
      · exact .inr (.inl ⟨_, h.symm⟩)
      · exact .inr (.inr h.symm)
    · exact .inl h.symm
  · cases h

/-! ## The rotation timer -/

theorem State.timerExpires_cases (h : s.timerExpires = some t) :
    t = s.startTimer ∨ (s.oc.mayRotate = true ∧ t = s.startTimer.timerRotation)
      ∨ (s.oc.mode = .online ∧
          t = { s.startTimer with oc := { s.startTimer.oc with rotationPending := true } }) := by
  unfold State.timerExpires at h
  split at h
  · simp only at h
    split at h
    · injection h with h
      exact .inl h.symm
    · split at h
      · rename_i hm
        injection h with h
        exact .inr (.inl ⟨hm, h.symm⟩)
      · split at h <;> injection h with h
        · rename_i hm
          exact .inr (.inr ⟨hm, h.symm⟩)
        · exact .inl h.symm
  · cases h

theorem State.takePendingRotation_cases (h : s.takePendingRotation = some t) :
    s.oc.mayRotate = true ∧ t = ({ s with oc := { s.oc with rotationPending := false } } : State).timerRotation := by
  unfold State.takePendingRotation at h
  split at h
  · rename_i hm
    injection h with h
    exact ⟨hm.2, h.symm⟩
  · cases h

theorem Controller.mayRotate_iff {oc : Controller} :
    oc.mayRotate = true ↔ oc.mode = .online ∧ oc.op = .idle ∧ oc.stack.length = 1 := by
  simp only [Controller.mayRotate, Bool.and_eq_true, decide_eq_true_eq, and_assoc]
  rfl

/-! ## The capture engine -/

theorem State.consider_cases (h : s.consider = some t) :
    ∃ e level, s.considers = true ∧ s.considerationPoint = some e ∧ s.mayConsider e = true
      ∧ s.oc.levelOf e.stamp = some level ∧ t = s.considerAt e level := by
  unfold State.consider at h
  split at h
  · split at h
    · cases h
    · split at h
      · obtain ⟨level, hl, rfl⟩ := Option.map_eq_some_iff.mp h
        exact ⟨_, level, by assumption, by assumption, by assumption, hl, rfl⟩
      · cases h
  · cases h

theorem State.captureRead_cases {d : BlockData} (h : s.captureRead d = some t) :
    ∃ i, s.endsWith (.ce i .read) (.okay d) ∧
      (t = s.portFreed
        ∨ ∃ c, s.ce.context i = some c ∧ t = s.portFreed.setContext i { c with bytes := d, state := .writingPayload }) := by
  unfold State.captureRead at h
  split at h
  · rename_i i u ho
    obtain ⟨he, rfl⟩ := State.portOutcome_cases ho
    refine ⟨i, he, ?_⟩
    split at h <;> injection h with h
    · exact .inr ⟨_, by assumption, h.symm⟩
    · exact .inl h.symm
  · cases h

theorem State.capturePayload_cases (h : s.capturePayload = some t) :
    ∃ i, s.endsWith (.ce i .payload) (.okay 0) ∧
      (t = s.portFreed
        ∨ ∃ c, s.ce.context i = some c ∧ t = s.portFreed.setContext i { c with state := .writingHeader }) := by
  unfold State.capturePayload at h
  split at h
  · rename_i i u ho
    obtain ⟨he, rfl⟩ := State.portOutcome_cases ho
    refine ⟨i, he, ?_⟩
    split at h <;> injection h with h
    · exact .inr ⟨_, by assumption, h.symm⟩
    · exact .inl h.symm
  · cases h

theorem State.captureHeader_cases (h : s.captureHeader = some t) :
    ∃ i, s.endsWith (.ce i .header) (.okay 0) ∧
      (t = s.portFreed
        ∨ ∃ c, s.ce.context i = some c
          ∧ t = ((s.portFreed.setContext i { c with state := .written }).slotWritten c.slot).advanceMark) := by
  unfold State.captureHeader at h
  split at h
  · rename_i i u ho
    obtain ⟨he, rfl⟩ := State.portOutcome_cases ho
    refine ⟨i, he, ?_⟩
    split at h <;> injection h with h
    · exact .inr ⟨_, by assumption, h.symm⟩
    · exact .inl h.symm
  · cases h

theorem State.captureFails_cases {f : MemFailure} (h : s.captureFails f = some t) :
    ∃ i part, s.endsWith (.ce i part) (.failed f) ∧
      (t = s.portFreed
        ∨ ∃ c, s.ce.context i = some c ∧ s.oc.detaching = false ∧ t = s.portFreed.captureFailed i c f) := by
  unfold State.captureFails at h
  split at h
  · rename_i i part u ho
    obtain ⟨he, rfl⟩ := State.portOutcome_cases ho
    refine ⟨i, part, he, ?_⟩
    split at h
    · split at h <;> injection h with h
      · exact .inl h.symm
      · exact .inr ⟨_, by assumption, by simp_all, h.symm⟩
    · injection h with h
      exact .inl h.symm
  · cases h

/-! ## The log's own writes -/

theorem State.markerWritten_cases (h : s.markerWritten = some t) :
    ∃ slot, s.endsWith (.lcOpen slot) (.okay 0) ∧ t = (s.portFreed.slotWritten slot).advanceMark := by
  unfold State.markerWritten at h
  split at h
  · rename_i slot u ho
    obtain ⟨he, rfl⟩ := State.portOutcome_cases ho
    injection h with h
    exact ⟨slot, he, h.symm⟩
  · cases h

theorem State.voidWritten_cases (h : s.voidWritten = some t) :
    ∃ slot, s.endsWith (.lcVoid slot) (.okay 0) ∧ t = (s.portFreed.slotWritten slot).advanceMark := by
  unfold State.voidWritten at h
  split at h
  · rename_i slot u ho
    obtain ⟨he, rfl⟩ := State.portOutcome_cases ho
    injection h with h
    exact ⟨slot, he, h.symm⟩
  · cases h

theorem State.markerWriteFails_cases {f : MemFailure} (h : s.markerWriteFails f = some t) :
    ∃ slot, s.endsWith (.lcOpen slot) (.failed f) ∧
      (s.oc.detaching = true ∧ t = s.portFreed ∨ s.oc.detaching = false ∧ t = s.portFreed.slotFailed slot f) := by
  unfold State.markerWriteFails at h
  split at h
  · rename_i slot u ho
    obtain ⟨he, rfl⟩ := State.portOutcome_cases ho
    injection h with h
    refine ⟨slot, he, ?_⟩
    split at h
    · exact .inl ⟨by assumption, h.symm⟩
    · exact .inr ⟨by simp_all, h.symm⟩
  · cases h

theorem State.voidWriteFails_cases {f : MemFailure} (h : s.voidWriteFails f = some t) :
    ∃ slot, s.endsWith (.lcVoid slot) (.failed f) ∧
      (s.oc.detaching = true ∧ t = s.portFreed ∨ s.oc.detaching = false ∧ t = s.portFreed.declareDead f) := by
  unfold State.voidWriteFails at h
  split at h
  · rename_i slot u ho
    obtain ⟨he, rfl⟩ := State.portOutcome_cases ho
    injection h with h
    refine ⟨slot, he, ?_⟩
    split at h
    · exact .inl ⟨by assumption, h.symm⟩
    · exact .inr ⟨by simp_all, h.symm⟩
  · cases h

theorem State.anchorWritten_cases (h : s.anchorWritten = some t) :
    ∃ job, s.endsWith (.lcAnchor job) (.okay 0) ∧ t = (s.portFreed.anchored job).anchorDone job.occasion := by
  unfold State.anchorWritten at h
  split at h
  · rename_i job u ho
    obtain ⟨he, rfl⟩ := State.portOutcome_cases ho
    injection h with h
    exact ⟨job, he, h.symm⟩
  · cases h

theorem State.anchorWriteFails_cases {f : MemFailure} (h : s.anchorWriteFails f = some t) :
    ∃ job, s.endsWith (.lcAnchor job) (.failed f) ∧
      (s.oc.detaching = true ∧ t = s.portFreed.copyFailed job.copy
        ∨ s.oc.detaching = false ∧ s.oc.mode = .attaching
            ∧ t = (s.portFreed.copyFailed job.copy).attachFails (failureCondition f)
        ∨ s.oc.detaching = false ∧ s.oc.mode ≠ .attaching ∧ t = (s.portFreed.copyFailed job.copy).declareDead f) := by
  unfold State.anchorWriteFails at h
  split at h
  · rename_i job u ho
    obtain ⟨he, rfl⟩ := State.portOutcome_cases ho
    injection h with h
    refine ⟨job, he, ?_⟩
    split at h
    · exact .inl ⟨by assumption, h.symm⟩
    · split at h
      · exact .inr (.inl ⟨by simp_all, by assumption, h.symm⟩)
      · exact .inr (.inr ⟨by simp_all, by assumption, h.symm⟩)
  · cases h

/-! ## The attach reads -/

theorem State.anchorRead_cases {r : MemReply} (h : s.anchorRead r = some t) :
    (∃ o f, (o = .lcReadA ∨ ∃ a, o = .lcReadB a) ∧ s.endsWith o r ∧ r = .failed f
        ∧ t = s.portFreed.attachFails (failureCondition f))
    ∨ (∃ d, r = .okay d ∧ s.endsWith .lcReadA r ∧ t = { s.portFreed with lc := { s.lc with
        copyA := copyOf (readAnchor s.log.slots d), attachRead := .anchorB (readAnchor s.log.slots d) } })
    ∨ ∃ a d, r = .okay d ∧ s.endsWith (.lcReadB a) r ∧ t = ({ s.portFreed with lc := { s.lc with
        copyB := copyOf (readAnchor s.log.slots d), attachRead := .none } } : State).anchorsRead a
          (readAnchor s.log.slots d) := by
  unfold State.anchorRead at h
  split at h
  · rename_i u ho
    obtain ⟨he, rfl⟩ := State.portOutcome_cases ho
    split at h <;> injection h with h
    · exact .inl ⟨_, _, .inl rfl, he, rfl, h.symm⟩
    · exact .inr (.inl ⟨_, rfl, he, h.symm⟩)
  · rename_i a u ho
    obtain ⟨he, rfl⟩ := State.portOutcome_cases ho
    split at h <;> injection h with h
    · exact .inl ⟨_, _, .inr ⟨a, rfl⟩, he, rfl, h.symm⟩
    · exact .inr (.inr ⟨a, _, rfl, he, h.symm⟩)
  · cases h

theorem State.tailRead_cases {r : MemReply} (h : s.tailRead r = some t) :
    ∃ o, (o = .lcTailHeader ∨ ∃ d, o = .lcTailPayload d) ∧ s.endsWith o r ∧
      ((∃ f, r = .failed f ∧ t = s.portFreed.attachFails (failureCondition f))
        ∨ (∃ d, t = { s.portFreed with lc := { s.lc with attachRead := .tailPayload d } })
        ∨ ∃ d p, t = s.portFreed.tailTest d p) := by
  unfold State.tailRead at h
  split at h
  · rename_i u ho
    obtain ⟨he, rfl⟩ := State.portOutcome_cases ho
    refine ⟨_, .inl rfl, he, ?_⟩
    split at h
    · injection h with h
      exact .inl ⟨_, rfl, h.symm⟩
    · split at h <;> injection h with h
      · exact .inr (.inl ⟨_, h.symm⟩)
      · exact .inr (.inr ⟨_, _, h.symm⟩)
  · rename_i d u ho
    obtain ⟨he, rfl⟩ := State.portOutcome_cases ho
    refine ⟨_, .inr ⟨d, rfl⟩, he, ?_⟩
    split at h <;> injection h with h
    · exact .inl ⟨_, rfl, h.symm⟩
    · exact .inr (.inr ⟨_, _, h.symm⟩)
  · cases h

/-! ## The restore engine's reads and writes -/

theorem State.replayRead_cases {r : MemReply} (h : s.replayRead r = some t) :
    s.re.stage = .replaying ∧ s.re.purpose = .rollback ∧ s.endsWith .re r ∧
      ((∃ d, t = { s.portFreed with re := { s.re with handling := .payload d } })
        ∨ (∃ d p, t = s.portFreed.replayRecord d p) ∨ ∃ c, t = s.portFreed.haltSlot c) := by
  unfold State.replayRead at h
  split at h
  · rename_i hst
    split at h
    · rename_i u ho
      obtain ⟨he, rfl⟩ := State.portOutcome_cases ho
      refine ⟨hst.1, hst.2, he, ?_⟩
      split at h
      · split at h <;> injection h with h
        · exact .inl ⟨_, h.symm⟩
        · exact .inr (.inl ⟨_, _, h.symm⟩)
      · injection h with h; exact .inr (.inl ⟨_, _, h.symm⟩)
      · injection h with h; exact .inr (.inr ⟨_, h.symm⟩)
      · injection h with h; exact .inr (.inr ⟨_, h.symm⟩)
      · cases h
    · cases h
  · cases h

theorem State.restoreEnds_cases {r : MemReply} (h : s.restoreEnds r = some t) :
    s.re.stage = .replaying ∧ s.re.purpose = .rollback ∧ s.endsWith .re r ∧
      (t = ({ s.portFreed with re := { s.re with restored := s.re.restored + 1 } } : State).slotDone
        ∨ ∃ c, t = s.portFreed.haltSlot c) := by
  unfold State.restoreEnds at h
  split at h
  · rename_i hst
    split at h
    · rename_i u ho
      obtain ⟨he, rfl⟩ := State.portOutcome_cases ho
      refine ⟨hst.1, hst.2, he, ?_⟩
      split at h
      · injection h with h; exact .inl h.symm
      · injection h with h; exact .inr ⟨_, h.symm⟩
      all_goals cases h
    · cases h
  · cases h

theorem State.scanRead_cases {r : MemReply} (h : s.scanRead r = some t) :
    s.re.stage = .scanning ∧ s.endsWith .re r ∧
      ((∃ d, t = { s.portFreed with re := { s.re with handling := .payload d } })
        ∨ (∃ d p, t = s.portFreed.scanRecord d p) ∨ ∃ c, t = s.portFreed.haltRecoverySlot c) := by
  unfold State.scanRead at h
  split at h
  · rename_i hst
    split at h
    · rename_i u ho
      obtain ⟨he, rfl⟩ := State.portOutcome_cases ho
      refine ⟨hst, he, ?_⟩
      split at h
      · split at h <;> injection h with h
        · exact .inl ⟨_, h.symm⟩
        · exact .inr (.inl ⟨_, _, h.symm⟩)
      · injection h with h; exact .inr (.inl ⟨_, _, h.symm⟩)
      · injection h with h; exact .inr (.inr ⟨_, h.symm⟩)
      · injection h with h; exact .inr (.inr ⟨_, h.symm⟩)
      · cases h
    · cases h
  · cases h

theorem State.recoveryRead_cases {r : MemReply} (h : s.recoveryRead r = some t) :
    s.re.stage = .replaying ∧ s.re.purpose = .recovery ∧ s.endsWith .re r ∧
      ((∃ d, t = { s.portFreed with re := { s.re with handling := .payload d } })
        ∨ (∃ d p, t = s.portFreed.recoveryRecord d p) ∨ ∃ c, t = s.portFreed.haltRecoverySlot c) := by
  unfold State.recoveryRead at h
  split at h
  · rename_i hst
    split at h
    · rename_i u ho
      obtain ⟨he, rfl⟩ := State.portOutcome_cases ho
      refine ⟨hst.1, hst.2, he, ?_⟩
      split at h
      · split at h <;> injection h with h
        · exact .inl ⟨_, h.symm⟩
        · exact .inr (.inl ⟨_, _, h.symm⟩)
      · injection h with h; exact .inr (.inl ⟨_, _, h.symm⟩)
      · injection h with h; exact .inr (.inr ⟨_, h.symm⟩)
      · injection h with h; exact .inr (.inr ⟨_, h.symm⟩)
      · cases h
    · cases h
  · cases h

theorem State.recoveryRestoreEnds_cases {r : MemReply} (h : s.recoveryRestoreEnds r = some t) :
    s.re.stage = .replaying ∧ s.re.purpose = .recovery ∧ s.endsWith .re r ∧
      (t = ({ s.portFreed with re := { s.re with restored := s.re.restored + 1 } } : State).recoverySlotDone
        ∨ ∃ c, t = s.portFreed.haltRecoverySlot c) := by
  unfold State.recoveryRestoreEnds at h
  split at h
  · rename_i hst
    split at h
    · rename_i u ho
      obtain ⟨he, rfl⟩ := State.portOutcome_cases ho
      refine ⟨hst.1, hst.2, he, ?_⟩
      split at h
      · injection h with h; exact .inl h.symm
      · injection h with h; exact .inr ⟨_, h.symm⟩
      all_goals cases h
    · cases h
  · cases h

/-! ## The waits -/

theorem State.drainEnds_cases (h : s.drainEnds = some t) :
    ∃ a, s.oc.attach = some a ∧ s.oc.mode = .attaching ∧ a.phase = .draining ∧ s.hq.holdsTrack = false
      ∧ t = { s.setAttachPhase .reading with lc := { s.lc with attachRead := .anchorA } } := by
  unfold State.drainEnds at h
  split at h
  · cases h
  · split at h
    · rename_i hc
      obtain ⟨hm, hp, hq⟩ := hc
      injection h with h
      exact ⟨_, by assumption, hm, hp, by simpa using hq, h.symm⟩
    · cases h

theorem State.orderingEnds_cases (h : s.orderingEnds = some t) :
    s.oc.phase = .openWait ∧
      (s.slotAnswer = .dead ∧ t = s.endForDeadLog.enterFence .logDead .none
        ∨ s.slotAnswer = .noSlot ∧ t = (s.failOpen .noSpace).endOperation
        ∨ s.slotAnswer = .granted ∧
            let u := (s.reserve .marker s.oc.depth s.oc.innermost).setLevel s.oc.depth
              fun l => { l with start := some s.lc.head }
            t = ({ u with oc := { u.oc with phase := .openMarker } } : State).queueWrite (.openHeader s.lc.head)) := by
  unfold State.orderingEnds at h
  split at h
  · rename_i hc
    refine ⟨hc.1, ?_⟩
    split at h <;> injection h with h
    · exact .inl ⟨by assumption, h.symm⟩
    · exact .inr (.inl ⟨by assumption, h.symm⟩)
    · exact .inr (.inr ⟨by assumption, h.symm⟩)
  · cases h

theorem State.commitWaitEnds_cases (h : s.commitWaitEnds = some t) :
    s.oc.phase = .commitWait ∧ s.commitWaitOver = true ∧
      t = ({ s.setBar with oc := { s.setBar.oc with phase := .commitAnchor } } : State).queueWrite (.anchor .commit) := by
  unfold State.commitWaitEnds at h
  split at h
  · rename_i hc
    injection h with h
    exact ⟨hc.1, hc.2, h.symm⟩
  · cases h

theorem State.rotateWaitEnds_cases (h : s.rotateWaitEnds = some t) :
    s.oc.phase = .rotateWait ∧ s.commitWaitOver = true ∧ ∃ x, s.oc.successor = some x ∧
      (1 ≤ s.freeSlots ∧
          (let u := (s.setBar.reserve .marker 1 x.serial).setSuccessorMarker s.lc.head
          t = ({ u with oc := { u.oc with phase := .rotateMarker } } : State).queueWrite (.openHeader s.lc.head))
        ∨ s.freeSlots = 0 ∧
          t = ({ s.setBar with oc := { s.setBar.oc with phase := .rotateFirstAnchor } } : State).queueWrite
            (.anchor .rotateFirst)) := by
  unfold State.rotateWaitEnds at h
  split at h
  · rename_i hc
    refine ⟨hc.1, hc.2, ?_⟩
    simp only at h
    split at h
    · cases h
    · refine ⟨_, by assumption, ?_⟩
      split at h <;> injection h with h
      · exact .inl ⟨by assumption, h.symm⟩
      · exact .inr ⟨by omega, h.symm⟩
  · cases h

theorem State.settle_cases (h : s.settle = some t) :
    s.re.stage = .settling ∧ s.settled = true ∧
      ((∃ c n, t = s.haltRollback c n)
        ∨ t = { s with re := { s.re with
            stage := .replaying, cursor := prevSlot s.log.slots s.lc.head, handling := .header } }) := by
  unfold State.settle at h
  split at h
  · rename_i hc
    refine ⟨hc.1, hc.2, ?_⟩
    simp only at h
    split at h
    · injection h with h; exact .inl ⟨_, _, h.symm⟩
    · split at h <;> injection h with h
      · exact .inl ⟨_, _, h.symm⟩
      · exact .inr h.symm
  · cases h

theorem State.detachCompletes_cases (h : s.detachCompletes = some t) :
    s.detachWaitOver = true ∧
      t = ({ s.discardHeld (·.isTrack) with
        cf := [], ce := CaptureEngine.reset, lc := LogState.reset, re := RestoreEngine.reset
        oc := { Controller.reset with latch := s.oc.latch, faultLine := s.oc.faultLine } } :
          State).dropLatch.raise .detached 0 .none 0 (BitVec.ofNat 32 (s.discardCount (·.isTrack))) := by
  unfold State.detachCompletes at h
  split at h
  · injection h with h
    exact ⟨by assumption, h.symm⟩
  · cases h

/-! ## Link commands -/

theorem State.attach_cases {arg : Byte} (h : (s.attach arg).leaves t) :
    s.oc.mode = .offline ∧ s.log.slots ≠ 0 ∧ ∃ a, t = s.beginAttach a := by
  unfold State.attach at h
  split at h
  · simp [Reply.leaves_refuse] at h
  · rename_i hpass
    split at h
    · simp [Reply.leaves_refuse] at h
    · rw [Reply.leaves_done] at h
      have hp := firstFailure_eq_none.mp hpass
      simp [State.attachChecks] at hp
      exact ⟨hp.1, hp.2.2, _, h.symm⟩

theorem State.recover_cases (h : s.recover.leaves t) :
    s.oc.mode = .suspect ∧
      t = { s with
        oc := { s.oc with mode := .recovering }
        re := { s.re with
          stage := .scanning, purpose := .recovery, cursor := s.lc.tail, restored := 0, abortRequested := false
          haltCondition := .none, resumeScanning := true, scanned := 0, opens := 0, highest := 0
          handling := .header } } := by
  unfold State.recover at h
  split at h
  · simp [Reply.leaves_refuse] at h
  · rw [Reply.leaves_done] at h
    exact ⟨by simp_all, h.symm⟩

theorem State.detach_cases (h : s.detach.leaves t) : s.detachRefusal = none ∧ t = s.beginDetach := by
  unfold State.detach at h
  split at h
  · simp [Reply.leaves_refuse] at h
  · rw [Reply.leaves_done] at h
    exact ⟨by assumption, h.symm⟩

/-- The checks that OPEN, COMMIT and ROTATE share passed: ONLINE at IDLE. -/
theorem State.epochChecks_pass {l : List (Bool × ResultCode)} (h : firstFailure (s.epochChecks ++ l) = none) :
    s.oc.mode = .online ∧ s.oc.op = .idle ∧ ∀ p ∈ l, p.1 = true := by
  have hp := firstFailure_eq_none.mp h
  refine ⟨?_, ?_, fun p hl => hp p (List.mem_append_right _ hl)⟩
  · simpa using hp (decide (s.oc.mode = .online), .state) (by simp [State.epochChecks])
  · simpa using hp (decide (s.oc.op = .idle), .busy) (by simp [State.epochChecks])

theorem LogState.takeSerial_cases {lc lc' : LogState} {w : Word32} (h : lc.takeSerial = some (w, lc')) :
    lc.nextSerial ≠ 0 ∧ w = lc.nextSerial ∧ lc' = { lc with nextSerial := lc.nextSerial + 1 } := by
  unfold LogState.takeSerial at h
  split at h
  · cases h
  · simp only [Option.some.injEq, Prod.mk.injEq] at h
    exact ⟨by assumption, h.1.symm, h.2.symm⟩

theorem State.openEpoch_cases (h : s.openEpoch.leaves t) :
    s.oc.mode = .online ∧ s.oc.op = .idle ∧ s.oc.stack.length < 6 ∧ s.lc.nextSerial ≠ 0 ∧
      t = ({ s with lc := { s.lc with nextSerial := s.lc.nextSerial + 1 } } : State).pushLevel s.lc.nextSerial := by
  unfold State.openEpoch at h
  split at h
  · simp [Reply.leaves_refuse] at h
  · rename_i hpass
    split at h
    · simp [Reply.leaves_refuse] at h
    · rename_i hserial
      rw [Reply.leaves_done] at h
      obtain ⟨hm, hop, hl⟩ := State.epochChecks_pass hpass
      obtain ⟨hn, rfl, rfl⟩ := LogState.takeSerial_cases hserial
      simp only [List.mem_cons, forall_eq_or_imp, decide_eq_true_eq] at hl
      exact ⟨hm, hop, hl.1, hn, h.symm⟩

theorem State.rotate_cases (h : s.rotate.leaves t) :
    s.oc.mode = .online ∧ s.oc.op = .idle ∧ s.oc.stack.length = 1 ∧ s.lc.nextSerial ≠ 0 ∧
      t = ({ s with lc := { s.lc with nextSerial := s.lc.nextSerial + 1 } } : State).startRotation s.lc.nextSerial
        .command := by
  unfold State.rotate at h
  split at h
  · simp [Reply.leaves_refuse] at h
  · rename_i hpass
    split at h
    · simp [Reply.leaves_refuse] at h
    · rename_i hserial
      rw [Reply.leaves_done] at h
      obtain ⟨hm, hop, hl⟩ := State.epochChecks_pass hpass
      obtain ⟨hn, rfl, rfl⟩ := LogState.takeSerial_cases hserial
      simp only [List.mem_cons, forall_eq_or_imp, decide_eq_true_eq] at hl
      exact ⟨hm, hop, hl.1, hn, h.symm⟩

theorem State.timerRotation_cases (s : State) :
    (s.lc.nextSerial = 0 ∧
        s.timerRotation = ({ s with oc := { s.oc with timer := none } } : State).raise .openFailed 1 .noSpace 0 2)
      ∨ s.lc.nextSerial ≠ 0 ∧
        s.timerRotation =
          ({ s with lc := { s.lc with nextSerial := s.lc.nextSerial + 1 } } : State).startRotation s.lc.nextSerial
            .timer := by
  unfold State.timerRotation
  by_cases h : s.lc.nextSerial = 0
  · rw [LogState.takeSerial_none h]; exact .inl ⟨h, rfl⟩
  · rw [LogState.takeSerial_some h]; exact .inr ⟨h, rfl⟩

theorem State.commit_cases (h : s.commit.leaves t) :
    s.oc.mode = .online ∧ s.oc.op = .idle ∧ ∃ base top, s.oc.stack = base ++ [top] ∧
      (1 ≤ base.length ∧ t = s.commitInner s.oc.depth top
        ∨ base = [] ∧ t = { s with oc := { s.oc with stamp := 0, op := .committing, phase := .commitWait } }) := by
  unfold State.commit at h
  split at h
  · simp [Reply.leaves_refuse] at h
  · rename_i hpass
    obtain ⟨hm, hop, -⟩ := State.epochChecks_pass hpass
    refine ⟨hm, hop, ?_⟩
    split at h
    · simp [Reply.leaves_refuse] at h
    · rename_i top htop
      obtain ⟨base, hbase⟩ := List.getLast?_eq_some_iff.mp htop
      have hdepth : s.oc.depth = base.length + 1 := by simp [Controller.depth, hbase]
      refine ⟨base, top, hbase, ?_⟩
      split at h <;> rw [Reply.leaves_done] at h
      · exact .inl ⟨by omega, h.symm⟩
      · exact .inr ⟨List.length_eq_zero_iff.mp (by omega), h.symm⟩

theorem State.rollback_cases {j : Byte} (h : (s.rollback j).leaves t) :
    (s.oc.mode = .online ∨ s.oc.frozen = true) ∧ s.oc.op = .idle ∧ 1 ≤ j.toNat ∧ j.toNat ≤ s.oc.stack.length ∧
      t = s.acceptRollback j.toNat .command := by
  unfold State.rollback at h
  split at h
  · simp [Reply.leaves_refuse] at h
  · rename_i hpass
    rw [Reply.leaves_done] at h
    have hp := firstFailure_eq_none.mp hpass
    simp [State.rollbackChecks] at hp
    exact ⟨hp.1, hp.2.1, by omega, hp.2.2.2.1.2, h.symm⟩

theorem State.abort_cases (h : s.abort.leaves t) :
    s.abortable = true ∧ s.re.stage ≠ .anchoring ∧ t = { s with re := { s.re with abortRequested := true } } := by
  unfold State.abort at h
  split at h
  · simp [Reply.leaves_refuse] at h
  · split at h
    · simp [Reply.leaves_refuse] at h
    · rw [Reply.leaves_done] at h
      exact ⟨by simp_all, by assumption, h.symm⟩

theorem State.resume_cases (h : s.resume.leaves t) :
    s.re.stage ≠ .anchoring ∧
      (s.recoveryHalted = true ∧ t = { s with re := { s.re with
          abortRequested := false, haltCondition := .none, handling := .header
          stage := if s.re.resumeScanning then .scanning else .replaying } }
      ∨ s.recoveryHalted = false ∧ s.oc.op = .halted ∧ t = { s with
          re := { s.re with abortRequested := false, haltCondition := .none, handling := .header, stage := .replaying }
          oc := { s.oc with op := .rolling } }) := by
  unfold State.resume at h
  split at h
  · simp [Reply.leaves_refuse] at h
  · rename_i hpass
    have hp := firstFailure_eq_none.mp hpass
    simp [State.resumeChecks] at hp
    refine ⟨hp.2.1, ?_⟩
    simp only at h
    split at h <;> rw [Reply.leaves_done] at h
    · exact .inl ⟨by assumption, h.symm⟩
    · have hno : s.recoveryHalted = false := by simp_all
      exact .inr ⟨hno, by simpa [hno] using hp.1, h.symm⟩

theorem State.discard_cases (h : s.discard.leaves t) :
    s.oc.op = .halted ∧ s.re.stage ≠ .anchoring ∧
      let u := s.discardLevels
      (u.oc.stack = [] ∧ t = ({ u.stopTimer with re := { u.re with purpose := .discard, stage := .anchoring } } :
            State).queueWrite (.anchor .discard)
        ∨ u.oc.stack ≠ [] ∧ t = (({ u with re := { u.re with stage := .idle } } : State).endOperation).raiseDiscarded) := by
  unfold State.discard at h
  split at h
  · simp [Reply.leaves_refuse] at h
  · split at h
    · simp [Reply.leaves_refuse] at h
    · refine ⟨by simp_all, by assumption, ?_⟩
      simp only at h ⊢
      split at h <;> rw [Reply.leaves_done] at h
      · rename_i hempty
        exact .inl ⟨List.isEmpty_iff.mp hempty, h.symm⟩
      · rename_i hne
        exact .inr ⟨fun h0 => hne (by rw [h0]; rfl), h.symm⟩

theorem State.thaw_cases (h : s.thaw.leaves t) :
    s.oc.frozen = true ∧ s.oc.op = .idle ∧
      let u : State := { s with oc := { s.oc with mode := .online, fence := .none } }
      (t = u ∨ t = u.startTimer) := by
  unfold State.thaw at h
  split at h
  · simp [Reply.leaves_refuse] at h
  · split at h
    · simp [Reply.leaves_refuse] at h
    · rw [Reply.leaves_done] at h
      refine ⟨by simp_all, by simp_all, ?_⟩
      split at h
      · exact .inl h.symm
      · exact .inr h.symm

/-! ## Configuration -/

theorem State.setOption_cases {checks : List (Bool × ResultCode)} {u : State} (h : (s.setOption checks u).leaves t) :
    t = u ∧ (∀ p ∈ checks, p.1 = true) := by
  unfold State.setOption at h
  split at h
  · simp [Reply.leaves_refuse] at h
  · rename_i hpass
    rw [Reply.leaves_done] at h
    exact ⟨h.symm, fun p hp => firstFailure_eq_none.mp hpass p (List.mem_append_right _ hp)⟩

theorem State.setlog_cases {base slots : Word32} (h : (s.setlog base slots).leaves t) :
    s.oc.mode = .offline ∧ t = { s with log := { base, slots := slots.toNat }, lc := LogState.reset } := by
  unfold State.setlog at h
  split at h
  · simp [Reply.leaves_refuse] at h
  · rename_i hpass
    rw [Reply.leaves_done] at h
    refine ⟨?_, h.symm⟩
    simpa using firstFailure_eq_none.mp hpass (decide (s.oc.mode = .offline), .state) (by simp [State.setlogChecks])

theorem State.readEvent_cases (h : s.readEvent.leaves t) :
    ∃ e rest, s.eq.records = e :: rest ∧ t = { s with eq := { s.eq with records := rest } } := by
  unfold State.readEvent at h
  split at h
  · simp [Reply.leaves_refuse] at h
  · rw [Reply.leaves_done] at h
    exact ⟨_, _, by assumption, h.symm⟩

/-! ## Grants -/

/-- The owner a write of the LC's queue goes to the port under. -/
def LogWrite.owner (s : State) : LogWrite → Owner
  | .openHeader slot => .lcOpen slot
  | .voidHeader slot => .lcVoid slot
  | .anchor o => .lcAnchor (s.anchorJob o)

/-- The owner an attach read goes to the port under. -/
def AttachRead.owner : AttachRead → Option Owner
  | .none => Option.none
  | .anchorA => some .lcReadA
  | .anchorB a => some (.lcReadB a)
  | .tailHeader => some .lcTailHeader
  | .tailPayload h => some (.lcTailPayload h)

/-- Everything a grant does: the oldest write of the LC or its attach read, the RE's request, a context's, or the master
path's, is presented at the port, which was IDLE; a write of the LC leaves its queue, a held write becomes ISSUED. -/
theorem State.grant_cases {first : Requester} (h : s.grant first = some t) :
    s.dp.port = none ∧ ∃ n, let u : State := { s with dp := { s.dp with fairness := n } }
      (∃ w rest q, s.stands .lc = true ∧ s.lc.writes = w :: rest
          ∧ t = ({ u with lc := { s.lc with writes := rest } } : State).present (w.owner s) q)
      ∨ (∃ o q, s.stands .lc = true ∧ s.lc.writes = [] ∧ s.lc.attachRead.owner = some o ∧ t = u.present o q)
      ∨ (∃ q, s.stands .re = true ∧ t = u.present .re q)
      ∨ (∃ i part q, s.stands .ce = true ∧ t = u.present (.ce i part) q)
      ∨ (∃ e q, t = ({ u with hq := s.hq.issue e } : State).present (.masterWrite e) q)
      ∨ ∃ q, t = u.present .masterRead q := by
  unfold State.grant at h
  split at h
  · cases h
  · rename_i hport
    refine ⟨by simpa using hport, ?_⟩
    split at h
    · cases h
    · rename_i g hg
      have hstands : s.stands g = true := by
        unfold State.arbitrate State.priorityChoice at hg
        split at hg
        · rename_i hc
          injection hg with hg
          exact hg ▸ hc.2
        · split at hg
          · rename_i hc
            injection hg with hg
            exact hg ▸ hc.1
          · split at hg
            · injection hg with hg; subst hg; assumption
            · split at hg
              · injection hg with hg; subst hg; assumption
              · split at hg
                · injection hg with hg; subst hg; assumption
                · split at hg
                  · injection hg with hg; subst hg; assumption
                  · cases hg
      refine ⟨s.fairnessAfter g, ?_⟩
      unfold State.grantTo at h
      simp only at h ⊢
      cases g
      case lc =>
        simp only [State.grantLc] at h
        split at h
        · rename_i w rest hw
          refine .inl ⟨w, rest, ?_⟩
          cases w <;> simp only at h
          case openHeader | voidHeader =>
            obtain ⟨e, -, rfl⟩ := Option.map_eq_some_iff.mp h
            exact ⟨_, hstands, hw, rfl⟩
          case anchor =>
            injection h with h
            exact ⟨_, hstands, hw, h.symm⟩
        · rename_i hw
          refine .inr (.inl ?_)
          split at h <;> rename_i hr
          · cases h
          all_goals
            injection h with h
            exact ⟨_, _, hstands, hw, by rw [hr]; rfl, h.symm⟩
      case re =>
        injection h with h
        refine .inr (.inr (.inl ?_))
        unfold State.grantRe at h
        split at h <;> exact ⟨_, hstands, h.symm⟩
      case ce =>
        refine .inr (.inr (.inr (.inl ?_)))
        simp only [State.grantCe] at h
        split at h
        · cases h
        · split at h
          · injection h with h; exact ⟨_, _, _, hstands, h.symm⟩
          · injection h with h; exact ⟨_, _, _, hstands, h.symm⟩
          · injection h with h; exact ⟨_, _, _, hstands, h.symm⟩
          all_goals cases h
      case masterPath =>
        simp only [State.grantMaster] at h
        split at h
        · injection h with h
          exact .inr (.inr (.inr (.inr (.inl ⟨_, _, h.symm⟩))))
        · split at h
          · obtain ⟨p, -, rfl⟩ := Option.map_eq_some_iff.mp h
            exact .inr (.inr (.inr (.inr (.inr ⟨_, rfl⟩))))
          · cases h

theorem State.reissue_cases {f : MemFailure} (h : s.reissue f = some t) :
    ∃ a, s.dp.port = some a ∧ t = { s with dp := { s.dp with
      port := some { a with failures := a.failures + 1, last := some f } } } := by
  unfold State.reissue at h
  split at h
  · cases h
  · split at h
    · injection h with h
      exact ⟨_, by assumption, h.symm⟩
    · cases h

end

end Sys2Proof.Machine

/-! SUPPORT. The queues and the upstream port: every command but a few raises events, lets held writes go and answers
requests, and does no more to them. -/

namespace Sys2Proof.Machine

/-! ## Events raised, writes gone, requests answered -/

/-- From `s` to `t` records have arrived at the event queue, the hold queue has not grown, the port's request has been
answered or stands as it was, and the write mode is the same. -/
structure Drains (s t : State) : Prop where
  events : ∃ es : List EventRecord, t.eq = es.foldl EventQueue.push s.eq
  held : t.hq.entries.length ≤ s.hq.entries.length
  port : t.up = s.up ∨ ∃ r, t.up = s.up.answer r
  writeMode : t.opts.writeMode = s.opts.writeMode

/-- A port that has answered holds no request, so it answers no more. -/
theorem UpstreamPort.answer_answer (up : UpstreamPort) (r r' : Response) : (up.answer r).answer r' = up.answer r := by
  cases h : up.state <;> simp [UpstreamPort.answer, h]

namespace Drains

theorem same {s t : State} (he : t.eq = s.eq) (hq : t.hq = s.hq) (hu : t.up = s.up) (ho : t.opts = s.opts) :
    Drains s t :=
  ⟨⟨[], he⟩, by rw [hq], .inl hu, by rw [ho]⟩

theorem refl (s : State) : Drains s s := same rfl rfl rfl rfl

theorem raised {s t : State} {e : EventRecord} (he : t.eq = s.eq.push e) (hq : t.hq = s.hq) (hu : t.up = s.up)
    (ho : t.opts = s.opts) : Drains s t :=
  ⟨⟨[e], he⟩, by rw [hq], .inl hu, by rw [ho]⟩

theorem trans {s t u : State} (h : Drains s t) (h' : Drains t u) : Drains s u := by
  obtain ⟨es, hes⟩ := h.events
  obtain ⟨es', hes'⟩ := h'.events
  refine ⟨⟨es ++ es', by rw [hes', hes, List.foldl_append]⟩, Nat.le_trans h'.held h.held, ?_,
    h'.writeMode.trans h.writeMode⟩
  rcases h.port with hp | ⟨r, hp⟩ <;> rcases h'.port with hp' | ⟨r', hp'⟩
  · exact .inl (hp'.trans hp)
  · exact .inr ⟨r', hp ▸ hp'⟩
  · exact .inr ⟨r, hp'.trans hp⟩
  · exact .inr ⟨r, by rw [hp', hp, UpstreamPort.answer_answer]⟩

/-- What a frame leaves alone. -/
theorem of_frame {ps : List Part} {s t : State} (h : OnlyChanges ps s t)
    (hp : Part.eq ∉ ps ∧ Part.hq ∉ ps ∧ Part.up ∉ ps ∧ Part.opts ∉ ps) : Drains s t :=
  same (h .eq hp.1) (h .hq hp.2.1) (h .up hp.2.2.1) (h .opts hp.2.2.2)

/-- The entries changed one by one. -/
theorem mapped {s t : State} {f : HoldEntry → HoldEntry} (he : t.eq = s.eq) (hq : t.hq.entries = s.hq.entries.map f)
    (hu : t.up = s.up) (ho : t.opts = s.opts) : Drains s t :=
  ⟨⟨[], he⟩, by rw [hq, List.length_map], .inl hu, by rw [ho]⟩

theorem answer (s : State) (r : Response) : Drains s (s.answer r) := ⟨⟨[], rfl⟩, Nat.le_refl _, .inr ⟨r, rfl⟩, rfl⟩

theorem raise (s : State) (k : EventKind) (n : Nat) (c : Condition) (w a : Word32) : Drains s (s.raise k n c w a) :=
  raised rfl rfl rfl rfl

theorem discardHeld (s : State) (p : HoldEntry → Bool) : Drains s (s.discardHeld p) := by
  refine ⟨⟨[], by simp⟩, ?_, ?_, by simp⟩
  · rw [State.discardHeld_hq]
    exact List.length_filter_le _ _
  · rw [State.discardHeld_up]
    split
    · exact .inr ⟨_, rfl⟩
    · exact .inl rfl

theorem restamp (s : State) (old new : Word32) : Drains s (s.restamp old new) := mapped rfl rfl rfl rfl

theorem portOutcome {s t : State} {r : MemReply} {o : Owner} (h : s.portOutcome r = some (o, t)) : Drains s t :=
  of_frame (s.portOutcome_frame r o t h) (by decide)

/-! ## The shared operations -/

theorem raiseBroken (c : Condition) (a : Word32) (ls : List Level) :
    ∀ (k : Nat) (s : State), Drains s (raiseBroken c a k ls s) := by
  induction ls with
  | nil => exact fun _ s => refl s
  | cons l rest ih =>
    intro k s
    simp only [Machine.raiseBroken]
    split
    · exact ih _ _
    · exact (raise s _ _ _ _ _).trans (ih _ _)

theorem breakAll (s : State) (c : Condition) (a : Word32) : Drains s (s.breakAll c a) :=
  (raiseBroken c a s.oc.stack 1 s).trans (same rfl rfl rfl rfl)

theorem popLevels (n : Nat) (s : State) : Drains s (s.popLevels n) :=
  of_frame (State.popLevels_onlyChanges n s) (by decide)

theorem reserve (s : State) (p : Purpose) (k : Nat) (w : Word32) : Drains s (s.reserve p k w) := by
  by_cases h : s.opts.highWater ≠ 0 ∧ s.lc.live + 1 = s.opts.highWater ∧ s.lc.armed = true
  · exact raised (by rw [State.reserve_eq]; exact if_pos h) (by rw [State.reserve_eq]) (by rw [State.reserve_eq])
      (by rw [State.reserve_eq])
  · exact same (by rw [State.reserve_eq]; exact if_neg h) (by rw [State.reserve_eq]) (by rw [State.reserve_eq])
      (by rw [State.reserve_eq])

theorem enterFence (s : State) (r : FenceReason) (c : Condition) : Drains s (s.enterFence r c) := by
  have hdiscard : ∀ u : State, Drains u (u.fenceDiscard r) := by
    intro u
    cases r
    · exact refl u
    · exact refl u
    · exact discardHeld u _
    · exact discardHeld u _
  have hmode : Drains s ({ s with oc := { s.oc with mode := .fenced, fence := r } } : State).stopTimer :=
    same rfl rfl rfl rfl
  exact hmode.trans ((hdiscard _).trans (raise _ _ _ _ _ _))

theorem dropLatch (s : State) : Drains s s.dropLatch := by
  unfold State.dropLatch
  split
  · exact raised rfl rfl rfl rfl
  · exact refl s

theorem abandonEpochOp (s : State) : Drains s s.abandonEpochOp := by
  unfold State.abandonEpochOp
  cases s.oc.phase
  case openWait | openMarker | openReclaim => exact raised rfl rfl rfl rfl
  all_goals exact same rfl rfl rfl rfl

theorem endForDeadLog (s : State) : Drains s s.endForDeadLog :=
  (abandonEpochOp s).trans (same rfl rfl rfl rfl)

theorem declareDead (s : State) (f : MemFailure) : Drains s (s.declareDead f) := by
  let dead : State := { s with
    lc := { s.lc with dead := true, reservations := [], writes := [] }, ce := CaptureEngine.reset }
  have hdead : Drains s dead := same rfl rfl rfl rfl
  exact hdead.trans ((endForDeadLog dead).trans ((enterFence _ _ _).trans (dropLatch _)))

theorem acceptRollback (s : State) (j : Nat) (o : RollbackOrigin) : Drains s (s.acceptRollback j o) := by
  unfold State.acceptRollback
  refine trans ?_ (discardHeld _ _)
  exact same rfl rfl rfl rfl

theorem actOnFault (s : State) : Drains s s.actOnFault := by
  have hroll : ∀ j, Drains s (s.faultRollback j) := by
    intro j
    unfold State.faultRollback
    split
    · exact (raise s _ _ _ _ _).trans (enterFence _ _ _)
    · exact (acceptRollback s _ _).trans (raise _ _ _ _ _ _)
  unfold State.actOnFault
  split
  · exact refl s
  · exact (raise s _ _ _ _ _).trans (enterFence _ _ _)
  · split
    · exact raise s _ _ _ _ _
    · exact hroll _
  · split
    · exact raise s _ _ _ _ _
    · exact hroll _

theorem takeAssertion (s : State) : Drains s s.takeAssertion := by
  unfold State.takeAssertion
  split
  · exact raise s _ _ _ _ _
  · split
    · exact raise s _ _ _ _ _
    · split
      · exact actOnFault s
      · split
        · exact raise s _ _ _ _ _
        · exact same rfl rfl rfl rfl

theorem stopTimerIfEmpty (s : State) : Drains s s.stopTimerIfEmpty := by
  unfold State.stopTimerIfEmpty
  split
  · exact same rfl rfl rfl rfl
  · exact refl s

theorem failOpen (s : State) (c : Condition) : Drains s (s.failOpen c) := by
  have hpop : Drains s s.popInnermost := same rfl rfl rfl rfl
  exact hpop.trans ((restamp _ _ _).trans ((raise _ _ _ _ _ _).trans (stopTimerIfEmpty _)))

theorem markerDurable (s : State) (e : Reservation) : Drains s (s.markerDurable e) := by
  unfold State.markerDurable
  cases s.oc.phase
  case openMarker =>
    simp only [State.openMarkerDurable]
    split <;> exact raised rfl rfl rfl rfl
  case rotateLateMarker => exact raised rfl rfl rfl rfl
  all_goals exact same rfl rfl rfl rfl

theorem markerFailed (s : State) (c : Condition) : Drains s (s.markerFailed c) := by
  unfold State.markerFailed
  cases s.oc.phase
  case openMarker =>
    simp only [State.openMarkerFailed]
    split
    · exact (failOpen s c).trans (same rfl rfl rfl rfl)
    · exact (failOpen s c).trans (same rfl rfl rfl rfl)
  case rotateMarker =>
    simp only [State.abandonRotation]
    split
    · exact same rfl rfl rfl rfl
    · rename_i x _
      have hstamp : Drains s { s with oc := { s.oc with stamp := s.oc.innermost, bar := none, successor := none } } :=
        same rfl rfl rfl rfl
      exact hstamp.trans ((restamp _ _ _).trans (raised rfl rfl rfl rfl))
  case rotateLateMarker =>
    have hpop : Drains s s.popInnermost := same rfl rfl rfl rfl
    exact hpop.trans ((restamp _ _ _).trans (raised rfl rfl rfl rfl))
  all_goals exact refl s

theorem slotDurable (s : State) (slot : Nat) : Drains s (s.slotDurable slot) := mapped rfl rfl rfl rfl

theorem passEntry (s : State) (e : Reservation) : Drains s (s.passEntry e) := by
  unfold State.passEntry
  refine (slotDurable s e.slot).trans ?_
  simp only
  split
  · exact same rfl rfl rfl rfl
  · exact refl _
  · exact markerDurable _ _
  · exact markerFailed _ _

theorem advanceOver (ls : List Reservation) : ∀ s : State, Drains s (advanceOver ls s) := by
  induction ls with
  | nil => exact refl
  | cons e rest ih =>
    intro s
    unfold Machine.advanceOver
    split
    · have hmark : Drains s { s with lc := { s.lc with reservations := rest, durable := s.lc.durable + 1 } } :=
        same rfl rfl rfl rfl
      exact hmark.trans ((passEntry _ e).trans (ih _))
    · exact refl s

theorem advanceMark (s : State) : Drains s s.advanceMark := advanceOver _ s

theorem timerRotation (s : State) : Drains s s.timerRotation := by
  unfold State.timerRotation
  split
  · exact raised rfl rfl rfl rfl
  · exact same rfl rfl rfl rfl

theorem beginEpisode (s : State) (e : HoldEntry) (k : Nat) : Drains s (s.beginEpisode e k) := by
  unfold State.beginEpisode
  split
  · exact refl s
  · exact raised rfl rfl rfl rfl

theorem setCapture (s : State) (n : Nat) (c : CaptureState) : Drains s (s.setCapture n c) := mapped rfl rfl rfl rfl

theorem insert (s : State) (b : Addr) (k : Nat) : Drains s (s.insert b k) := same rfl rfl rfl rfl

theorem noSlot (s : State) (e : HoldEntry) (k : Nat) : Drains s (s.noSlot e k) := by
  unfold State.noSlot
  split
  · exact (setCapture s _ _).trans (beginEpisode _ _ _)
  · exact (insert s _ _).trans ((breakAll _ _ _).trans ((setCapture _ _ _).trans (beginEpisode _ _ _)))

theorem startCapture (s : State) (e : HoldEntry) (k i : Nat) : Drains s (s.startCapture e k i) := by
  have hctx : ∀ (u : State) (cs : List (Option Context)), Drains u { u with ce := { u.ce with contexts := cs } } :=
    fun _ _ => same rfl rfl rfl rfl
  exact (reserve s .capture k e.stamp).trans ((insert _ _ _).trans ((hctx _ _).trans (setCapture _ _ _)))

theorem considerAt (s : State) (e : HoldEntry) (k : Nat) : Drains s (s.considerAt e k) := by
  unfold State.considerAt
  split
  · split <;> exact setCapture s _ _
  · split
    · split
      · exact (insert s _ _).trans (setCapture _ _ _)
      · exact (insert s _ _).trans (setCapture _ _ _)
      · exact setCapture s _ _
    · unfold State.needCapture
      split
      · exact noSlot s e k
      · split
        · exact setCapture s _ _
        · split
          · exact refl s
          · split
            · exact setCapture s _ _
            · exact noSlot s e k
            · exact startCapture s e k _

theorem captureFailed (s : State) (i : Nat) (c : Context) (f : MemFailure) : Drains s (s.captureFailed i c f) := by
  have hfail : Drains s (((s.setContext i { c with failure := some f, state := .written }).slotFailed c.slot f).raise
      .captureFailed c.level (failureCondition f) c.serial c.block) := raised rfl rfl rfl rfl
  unfold State.captureFailed
  simp only
  split
  · have hdep : ∀ u : State, Drains u (u.refuseDependents c) := fun u =>
      (discardHeld u _).trans (same rfl rfl rfl rfl)
    exact hfail.trans (hdep _)
  · exact hfail.trans (breakAll _ _ _)

theorem attachFails (s : State) (c : Condition) : Drains s (s.attachFails c) := raised rfl rfl rfl rfl

theorem attached (s : State) (m : Mode) (a : Word32) : Drains s (s.attached m a) := raised rfl rfl rfl rfl

theorem rolledBack (s : State) : Drains s s.rolledBack := by
  unfold State.rolledBack State.leaveFreeze
  split
  · simp only
    split <;> exact raised rfl rfl rfl rfl
  · exact raised rfl rfl rfl rfl

theorem replaceLevelOne (s : State) (w : Word32) (n : Option Nat) : Drains s (s.replaceLevelOne w n) :=
  mapped rfl rfl rfl rfl

theorem anchorDone (s : State) (o : AnchorOccasion) : Drains s (s.anchorDone o) := by
  cases o
  case attachKeep | formatB => exact attached s _ _
  case formatA | openReclaim | rotateReclaim => exact same rfl rfl rfl rfl
  case commit =>
    simp only [State.anchorDone, State.committed]
    split
    · exact same rfl rfl rfl rfl
    · rename_i l _
      have hempty : Drains s { s with oc := { s.oc with stack := [], stamp := 0, bar := none }, cf := [] } :=
        same rfl rfl rfl rfl
      exact hempty.trans ((restamp _ l.serial 0).trans (raised rfl rfl rfl rfl))
  case rotateMarker =>
    simp only [State.anchorDone, State.rotated]
    split
    · exact same rfl rfl rfl rfl
    · exact (replaceLevelOne s _ _).trans (raised rfl rfl rfl rfl)
  case rotateFirst =>
    simp only [State.anchorDone, State.rotatedFirst]
    split
    · exact same rfl rfl rfl rfl
    · exact (replaceLevelOne s _ _).trans ((reserve _ _ _ _).trans (same rfl rfl rfl rfl))
  case rollback => exact rolledBack s
  case discard | recovery => exact raised rfl rfl rfl rfl

theorem slotDone (s : State) : Drains s s.slotDone := by
  simp only [State.slotDone]
  split
  · exact raised rfl rfl rfl rfl
  · exact same rfl rfl rfl rfl

theorem haltSlot (s : State) (c : Condition) : Drains s (s.haltSlot c) := raised rfl rfl rfl rfl

theorem popLevel (s : State) : Drains s s.popLevel := of_frame s.popLevel_onlyChanges (by decide)

theorem replayEnds (s : State) : Drains s s.replayEnds := by
  simp only [State.replayEnds]
  split
  · exact same rfl rfl rfl rfl
  · refine trans ?_ (rolledBack _)
    exact same rfl rfl rfl rfl

theorem replayRecord (s : State) (h p : BlockData) : Drains s (s.replayRecord h p) := by
  unfold State.replayRecord
  split
  · exact haltSlot s _
  · split
    · split
      · exact same rfl rfl rfl rfl
      · simp only [State.replayOpen]
        split
        · split
          · exact (popLevel s).trans (replayEnds _)
          · exact (popLevel s).trans (slotDone _)
        · exact slotDone s
      · exact slotDone s
    · exact haltSlot s _

theorem scanEnds (s : State) (n : Nat) : Drains s (s.scanEnds n) := by
  simp only [State.scanEnds]
  split
  · exact same rfl rfl rfl rfl
  · split
    · exact raised rfl rfl rfl rfl
    · exact same rfl rfl rfl rfl

theorem scanRecord (s : State) (h p : BlockData) : Drains s (s.scanRecord h p) := by
  unfold State.scanRecord
  split
  · simp only [State.scanPasses]
    split
    · refine trans ?_ (scanEnds _ _)
      exact same rfl rfl rfl rfl
    · split
      · exact raised rfl rfl rfl rfl
      · exact same rfl rfl rfl rfl
  · exact scanEnds s _

theorem recoverySlotDone (s : State) : Drains s s.recoverySlotDone := by
  simp only [State.recoverySlotDone]
  split
  · exact same rfl rfl rfl rfl
  · split
    · exact raised rfl rfl rfl rfl
    · exact same rfl rfl rfl rfl

theorem recoveryRecord (s : State) (h p : BlockData) : Drains s (s.recoveryRecord h p) := by
  unfold State.recoveryRecord
  split
  · exact raised rfl rfl rfl rfl
  · split
    · split
      · exact same rfl rfl rfl rfl
      · exact raised rfl rfl rfl rfl
    · exact recoverySlotDone s
    · exact recoverySlotDone s

theorem raiseDropped (ls : List HoldEntry) : ∀ s : State, Drains s (raiseDropped ls s) := by
  induction ls with
  | nil => exact refl
  | cons e rest ih =>
    intro s
    simp only [Machine.raiseDropped]
    split
    · exact (raise s _ _ _ _ _).trans (ih _)
    · exact ih _

theorem portFreed (s : State) : Drains s s.portFreed := same rfl rfl rfl rfl

theorem removed (s : State) (n : Nat) : Drains s { s.portFreed with hq := s.hq.remove n } :=
  ⟨⟨[], rfl⟩, List.length_filter_le _ _, .inl rfl, rfl⟩

theorem slotWritten (s : State) (n : Nat) : Drains s (s.slotWritten n) := same rfl rfl rfl rfl

theorem setContext (s : State) (i : Nat) (c : Context) : Drains s (s.setContext i c) := same rfl rfl rfl rfl

theorem anchorsRead (s : State) (a b : Option Anchor) : Drains s (s.anchorsRead a b) := by
  unfold State.anchorsRead
  split
  · exact refl s
  · split
    · split
      · exact attachFails s _
      · exact same rfl rfl rfl rfl
    · exact same rfl rfl rfl rfl

theorem tailTest (s : State) (h p : BlockData) : Drains s (s.tailTest h p) := by
  simp only [State.tailTest]
  split
  · exact raised rfl rfl rfl rfl
  · exact same rfl rfl rfl rfl

theorem commitInner (s : State) (k : Nat) (l : Level) : Drains s (s.commitInner k l) := by
  have hmerge : Drains s (({ (s.setLevel (k - 1) fun m => { m with
      captures := saturatingAdd m.captures l.captures }).popInnermost with cf := filterRelabel s.cf k } :
        State).relabelCaptures k (s.oc.serialAt (k - 1))) := same rfl rfl rfl rfl
  exact hmerge.trans ((restamp _ _ _).trans (raise _ _ _ _ _ _))

theorem discardLevels (s : State) : Drains s s.discardLevels := by
  unfold State.discardLevels
  exact (popLevels _ s).trans ((breakAll _ _ _).trans (same rfl rfl rfl rfl))

theorem beginAttach (s : State) (a : AttachArg) : Drains s (s.beginAttach a) := by
  have hmode : Drains s { s with
      oc := { s.oc with mode := .attaching, attach := some { phase := .draining, arg := a } }, lc := LogState.reset } :=
    same rfl rfl rfl rfl
  exact hmode.trans ((discardHeld _ _).trans (raiseDropped _ _))

end Drains

/-! ## Each command -/

/-- The commands after which more may stand in the queues than events raised: those that take from the event queue, a
new request, a change of write mode, a pin reset. -/
def refillsQueues : Instr → Bool
  | .pinReset => true
  | .upstreamRequest _ => true
  | .status => true
  | .event => true
  | .setoptWriteMode _ => true
  | _ => false

open Drains in
/-- The effect of every other command drains. -/
theorem Does.drains {c : Instr} {s t : State} (h : Does c s t) (hc : refillsQueues c = false) : Drains s t := by
  cases c
  case pinReset | upstreamRequest | status | event | setoptWriteMode => cases hc
  case setoptRetryLimit | setoptLogFullPolicy | setoptHighWaterMark | setoptFaultPolicy | setoptRotationPeriod =>
    obtain ⟨rfl, -⟩ := State.setOption_cases h
    exact ⟨⟨[], rfl⟩, Nat.le_refl _, .inl rfl, rfl⟩
  case faultAssertion =>
    obtain ⟨-, rfl | rfl⟩ := State.assertFault_cases h
    · exact same rfl rfl rfl rfl
    · exact Drains.trans (t := { s with oc := { s.oc with faultLine := true } }) (same rfl rfl rfl rfl) (takeAssertion _)
  case faultLatchTaken =>
    obtain ⟨-, ⟨-, rfl⟩ | ⟨-, rfl⟩⟩ := State.takeLatch_cases h
    · exact Drains.trans (t := { s with oc := { s.oc with latch := false } }) (same rfl rfl rfl rfl) (actOnFault _)
    · exact dropLatch s
  case rotationTimerExpiry =>
    have hstart : Drains s s.startTimer := same rfl rfl rfl rfl
    obtain rfl | ⟨-, rfl⟩ | ⟨-, rfl⟩ := State.timerExpires_cases h
    · exact hstart
    · exact hstart.trans (timerRotation _)
    · exact same rfl rfl rfl rfl
  case pendingRotationTaken =>
    obtain ⟨-, rfl⟩ := State.takePendingRotation_cases h
    exact Drains.trans (t := { s with oc := { s.oc with rotationPending := false } }) (same rfl rfl rfl rfl) (timerRotation _)
  case consideration =>
    obtain ⟨e, level, -, -, -, -, rfl⟩ := State.consider_cases h
    exact considerAt s e level
  case downstreamGrant =>
    obtain ⟨-, n, ⟨w, rest, q, -, -, rfl⟩ | ⟨o, q, -, -, -, rfl⟩ | ⟨q, -, rfl⟩ | ⟨i, part, q, -, rfl⟩ | ⟨e, q, rfl⟩ |
      ⟨q, rfl⟩⟩ := State.grant_cases h
    case inr.inr.inr.inr.inl => exact mapped rfl rfl rfl rfl
    all_goals exact same rfl rfl rfl rfl
  case masterReadComplete =>
    obtain ⟨-, rfl | ⟨p, -, rfl⟩⟩ := State.readEnds_cases h
    · exact portFreed s
    · have hread : Drains s { s.portFreed with hq := { s.hq with read := none } } :=
        ⟨⟨[], rfl⟩, Nat.le_refl _, .inl rfl, rfl⟩
      exact hread.trans (answer _ _)
  case masterWriteComplete =>
    obtain ⟨n, -, rfl | rfl | rfl⟩ := State.writeEnds_cases h
    · exact portFreed s
    · exact removed s n
    · exact (removed s n).trans (answer _ _)
  case masterWriteFailed =>
    obtain ⟨n, -, rfl | ⟨e, rfl⟩ | rfl⟩ := State.writeFails_cases h
    · exact portFreed s
    · exact (removed s n).trans (raised rfl rfl rfl rfl)
    · exact (removed s n).trans (answer _ _)
  case captureHeaderWriteComplete =>
    obtain ⟨i, -, rfl | ⟨c, -, rfl⟩⟩ := State.captureHeader_cases h
    · exact portFreed s
    · exact (portFreed s).trans ((setContext _ i _).trans ((slotWritten _ _).trans (advanceMark _)))
  case captureRequestFailed =>
    obtain ⟨i, part, -, rfl | ⟨c, -, -, rfl⟩⟩ := State.captureFails_cases h
    · exact portFreed s
    · exact (portFreed s).trans (captureFailed _ _ _ _)
  case markerWriteComplete =>
    obtain ⟨slot, -, rfl⟩ := State.markerWritten_cases h
    exact (portFreed s).trans ((slotWritten _ _).trans (advanceMark _))
  case voidWriteComplete =>
    obtain ⟨slot, -, rfl⟩ := State.voidWritten_cases h
    exact (portFreed s).trans ((slotWritten _ _).trans (advanceMark _))
  case voidWriteFailed =>
    obtain ⟨slot, -, ⟨-, rfl⟩ | ⟨-, rfl⟩⟩ := State.voidWriteFails_cases h
    · exact portFreed s
    · exact (portFreed s).trans (declareDead _ _)
  case anchorWriteComplete =>
    obtain ⟨job, -, rfl⟩ := State.anchorWritten_cases h
    have hring : Drains s (s.portFreed.anchored job) := same rfl rfl rfl rfl
    exact hring.trans (anchorDone _ _)
  case anchorWriteFailed =>
    obtain ⟨job, -, ⟨-, rfl⟩ | ⟨-, -, rfl⟩ | ⟨-, -, rfl⟩⟩ := State.anchorWriteFails_cases h
    all_goals have hcopy : Drains s (s.portFreed.copyFailed job.copy) := same rfl rfl rfl rfl
    · exact hcopy
    · exact hcopy.trans (attachFails _ _)
    · exact hcopy.trans (declareDead _ _)
  case anchorReadComplete =>
    obtain ⟨o, f, -, -, -, rfl⟩ | ⟨d, -, -, rfl⟩ | ⟨a, d, -, -, rfl⟩ := State.anchorRead_cases h
    · exact (portFreed s).trans (attachFails _ _)
    · exact same rfl rfl rfl rfl
    · refine Drains.trans ?_ (anchorsRead _ _ _)
      exact same rfl rfl rfl rfl
  case tailReadComplete =>
    obtain ⟨o, -, -, ⟨f, -, rfl⟩ | ⟨d, rfl⟩ | ⟨d, p, rfl⟩⟩ := State.tailRead_cases h
    · exact (portFreed s).trans (attachFails _ _)
    · exact same rfl rfl rfl rfl
    · exact (portFreed s).trans (tailTest _ _ _)
  case replayReadComplete =>
    obtain ⟨-, -, -, ⟨d, rfl⟩ | ⟨d, p, rfl⟩ | ⟨c, rfl⟩⟩ := State.replayRead_cases h
    · exact same rfl rfl rfl rfl
    · exact (portFreed s).trans (replayRecord _ _ _)
    · exact (portFreed s).trans (haltSlot _ _)
  case restoreWriteComplete =>
    obtain ⟨-, -, -, rfl | ⟨c, rfl⟩⟩ := State.restoreEnds_cases h
    · refine Drains.trans ?_ (slotDone _)
      exact same rfl rfl rfl rfl
    · exact (portFreed s).trans (haltSlot _ _)
  case scanReadComplete =>
    obtain ⟨-, -, ⟨d, rfl⟩ | ⟨d, p, rfl⟩ | ⟨c, rfl⟩⟩ := State.scanRead_cases h
    · exact same rfl rfl rfl rfl
    · exact (portFreed s).trans (scanRecord _ _ _)
    · exact raised rfl rfl rfl rfl
  case recoveryReadComplete =>
    obtain ⟨-, -, -, ⟨d, rfl⟩ | ⟨d, p, rfl⟩ | ⟨c, rfl⟩⟩ := State.recoveryRead_cases h
    · exact same rfl rfl rfl rfl
    · exact (portFreed s).trans (recoveryRecord _ _ _)
    · exact raised rfl rfl rfl rfl
  case recoveryRestoreComplete =>
    obtain ⟨-, -, -, rfl | ⟨c, rfl⟩⟩ := State.recoveryRestoreEnds_cases h
    · refine Drains.trans ?_ (recoverySlotDone _)
      exact same rfl rfl rfl rfl
    · exact raised rfl rfl rfl rfl
  case orderingWaitEnd =>
    obtain ⟨-, ⟨-, rfl⟩ | ⟨-, rfl⟩ | ⟨-, rfl⟩⟩ := State.orderingEnds_cases h
    · exact (endForDeadLog s).trans (enterFence _ _ _)
    · exact (failOpen s _).trans (same rfl rfl rfl rfl)
    · exact (reserve s _ _ _).trans (same rfl rfl rfl rfl)
  case rotateWaitEnd =>
    obtain ⟨-, -, x, -, ⟨-, rfl⟩ | ⟨-, rfl⟩⟩ := State.rotateWaitEnds_cases h
    · have hbar : Drains s s.setBar := same rfl rfl rfl rfl
      exact hbar.trans ((reserve _ _ _ _).trans (same rfl rfl rfl rfl))
    · exact same rfl rfl rfl rfl
  case settlingEnd =>
    obtain ⟨-, -, ⟨c, n, rfl⟩ | rfl⟩ := State.settle_cases h
    · exact raised rfl rfl rfl rfl
    · exact same rfl rfl rfl rfl
  case detachComplete =>
    obtain ⟨-, rfl⟩ := State.detachCompletes_cases h
    refine (discardHeld s (·.isTrack)).trans (Drains.trans ?_ (Drains.trans (dropLatch _) (raise _ _ _ _ _ _)))
    exact same rfl rfl rfl rfl
  case attachKeep | attachFormat =>
    obtain ⟨-, -, a, rfl⟩ := State.attach_cases h
    exact beginAttach s a
  case commit =>
    obtain ⟨-, -, base, top, -, ⟨-, rfl⟩ | ⟨-, rfl⟩⟩ := State.commit_cases h
    · exact commitInner s _ _
    · exact same rfl rfl rfl rfl
  case rollback =>
    obtain ⟨-, -, -, -, rfl⟩ := State.rollback_cases h
    exact acceptRollback s _ _
  case discard =>
    obtain ⟨-, -, ⟨-, rfl⟩ | ⟨-, rfl⟩⟩ := State.discard_cases h
    · exact (discardLevels s).trans (same rfl rfl rfl rfl)
    · exact (discardLevels s).trans (raised rfl rfl rfl rfl)
  all_goals exact of_frame h.frame (by simp [footprint])

end Sys2Proof.Machine

/-! SUPPORT. The bounds of the queues, the count of answers, the frame's level of CS, and the stalls that the situation
justifies, kept by every step. -/

namespace Sys2Proof.Machine

/-! ## Deciding a request, case by case (R5, R12 to R15) -/

/-- Everything a decision can do: refuse, stall for the situation, hold, stall for want of an entry, or pass. -/
theorem State.decideRequest_cases (s : State) (r : MemRequest) :
    s.decideRequest r = s.answer .error
    ∨ (treatment s.oc.mode s.oc.op (s.classify r) r.isWrite = .stall
        ∧ s.decideRequest r = { s with up := { s.up with state := .stalled .situation r } })
    ∨ (s.canHold = true ∧ s.decideRequest r = s.hold r (s.classify r))
    ∨ (r.isWrite = true ∧ treatment s.oc.mode s.oc.op (s.classify r) r.isWrite = .take
        ∧ s.decideRequest r = { s with up := { s.up with state := .stalled .queue r } })
    ∨ s.decideRequest r = { s with
        hq := { s.hq with read := some { addr := r.addr, isBlock := r.isBlock, cls := s.classify r } }
        up := { s.up with state := .readPending } } := by
  unfold State.decideRequest
  simp only
  split
  · exact .inl rfl
  · exact .inr (.inl ⟨by assumption, rfl⟩)
  · split
    · split
      · exact .inr (.inr (.inl ⟨by assumption, rfl⟩))
      · exact .inr (.inr (.inr (.inl ⟨by assumption, by assumption, rfl⟩)))
    · exact .inr (.inr (.inr (.inr rfl)))

/-- A write taken: an entry more, and an answer where it is acknowledged at once. -/
theorem State.hold_leaves (s : State) (r : MemRequest) (cls : RequestClass) :
    (s.hold r cls).hq.entries = s.hq.entries ++ [s.newEntry r cls]
      ∧ ((s.hold r cls).up = s.up.answer .okayWrite ∨ (s.hold r cls).up = { s.up with state := .writePending }) := by
  unfold State.hold
  simp only
  split
  · exact ⟨rfl, .inl rfl⟩
  · exact ⟨rfl, .inr rfl⟩

/-! ## The queues stay bounded (R97, R183) -/

theorem EventQueue.foldl_push_bounds (es : List EventRecord) :
    ∀ q : EventQueue, q.records.length ≤ 16 → q.lost ≤ 255 →
      (es.foldl EventQueue.push q).records.length ≤ 16 ∧ (es.foldl EventQueue.push q).lost ≤ 255 := by
  induction es with
  | nil => exact fun q hr hl => ⟨hr, hl⟩
  | cons e rest ih => exact fun q hr hl => ih _ (q.push_records_le e hr) (q.push_lost_le e hl)

theorem Drains.queuesBounded {s t : State} (h : Drains s t) (hs : s.queuesBounded) : t.queuesBounded := by
  obtain ⟨hr, hl, h8, hstrict⟩ := hs
  obtain ⟨es, hes⟩ := h.events
  obtain ⟨hr', hl'⟩ := EventQueue.foldl_push_bounds es s.eq hr hl
  exact ⟨hes ▸ hr', hes ▸ hl', Nat.le_trans h.held h8,
    fun hm => Nat.le_trans h.held (hstrict (h.writeMode.symm.trans hm))⟩

theorem State.canHold_bound {s : State} (h : s.canHold = true) :
    s.hq.entries.length + 1 ≤ 8 ∧ (s.opts.writeMode = .strict → s.hq.entries.length = 0) := by
  unfold State.canHold at h
  split at h <;> rename_i hm
  · have hlt : s.hq.entries.length < 8 := by simpa using h
    exact ⟨hlt, fun hs => by rw [hm] at hs; cases hs⟩
  · have h0 : s.hq.entries.length = 0 := by simpa using h
    exact ⟨by omega, fun _ => h0⟩

theorem State.queuesBounded_decideRequest {s : State} (hs : s.queuesBounded) (r : MemRequest) :
    (s.decideRequest r).queuesBounded := by
  rcases s.decideRequest_cases r with h | ⟨-, h⟩ | ⟨hc, h⟩ | ⟨-, -, h⟩ | h <;> rw [h]
  · exact hs
  · exact hs
  · obtain ⟨hr, hl, -, -⟩ := hs
    obtain ⟨h8, h0⟩ := State.canHold_bound hc
    have hframe := s.hold_onlyChanges r (s.classify r)
    have he : (s.hold r (s.classify r)).eq = s.eq := hframe .eq (by decide)
    have ho : (s.hold r (s.classify r)).opts = s.opts := hframe .opts (by decide)
    have hlen : (s.hold r (s.classify r)).hq.entries.length = s.hq.entries.length + 1 := by
      rw [(s.hold_leaves r _).1, List.length_append]
      rfl
    unfold State.queuesBounded
    rw [he, ho, hlen]
    exact ⟨hr, hl, h8, fun hm => by rw [h0 hm]⟩
  · exact hs
  · exact hs

theorem redecide_cases (before after : State) :
    redecide before after = after
      ∨ ∃ reason r, after.up.state = .stalled reason r ∧ redecide before after = after.decideRequest r := by
  unfold redecide
  split
  · split
    · exact .inr ⟨_, _, by assumption, rfl⟩
    · exact .inl rfl
  all_goals exact .inl rfl

theorem finish_keeps_queuesBounded {b a : State} (h : a.queuesBounded) : (finish b a).queuesBounded := by
  have hre : (redecide b a).queuesBounded := by
    rcases redecide_cases b a with hr | ⟨_, r, -, hr⟩ <;> rw [hr]
    · exact h
    · exact State.queuesBounded_decideRequest h r
  exact hre

theorem Does.keeps_queuesBounded {c : Instr} {s t : State} (hs : s.queuesBounded) (h : Does c s t) :
    t.queuesBounded := by
  cases hc : refillsQueues c
  · exact (h.drains hc).queuesBounded hs
  · obtain ⟨hr, hl, h8, hstrict⟩ := hs
    cases c <;> simp only [refillsQueues, Bool.false_eq_true] at hc
    case pinReset =>
      subst h
      exact (by decide +kernel : State.reset.queuesBounded)
    case upstreamRequest r =>
      obtain ⟨-, rfl⟩ := State.receive_cases h
      refine State.queuesBounded_decideRequest ?_ r
      exact ⟨hr, hl, h8, hstrict⟩
    case status =>
      subst h
      exact ⟨hr, Nat.zero_le _, h8, hstrict⟩
    case event =>
      obtain ⟨e, rest, he, rfl⟩ := State.readEvent_cases h
      rw [he] at hr
      exact ⟨Nat.le_of_succ_le hr, hl, h8, hstrict⟩
    case setoptWriteMode v =>
      obtain ⟨rfl, hchecks⟩ := State.setOption_cases h
      refine ⟨hr, hl, h8, fun hm => ?_⟩
      simp only [List.mem_cons, List.not_mem_nil, or_false, forall_eq_or_imp, forall_eq, Bool.or_eq_true,
        decide_eq_true_eq] at hchecks
      obtain ⟨hsome, hdec⟩ := hchecks
      obtain ⟨m, hv⟩ := Option.isSome_iff_exists.mp hsome
      rw [hv] at hm hdec
      rcases hdec with hne | hlen
      · exact absurd (congrArg some hm) hne
      · exact hlen

/-! ## Every request is answered once (R2, R3) -/

theorem UpstreamPort.answer_count (up : UpstreamPort) (r : Response) :
    (up.answer r).received = up.received
      ∧ (up.answer r).answers.length + (up.answer r).outstanding = up.answers.length + up.outstanding := by
  cases h : up.state <;> simp [UpstreamPort.answer, UpstreamPort.outstanding, h]

theorem Drains.answersCounted {s t : State} (h : Drains s t) (hs : s.answersCounted) : t.answersCounted := by
  unfold State.answersCounted at hs ⊢
  rcases h.port with hp | ⟨r, hp⟩ <;> rw [hp]
  · exact hs
  · obtain ⟨hreceived, hcount⟩ := s.up.answer_count r
    omega

/-- A decision keeps the count while the port holds a request. -/
theorem State.answersCounted_decideRequest {s : State} (hs : s.answersCounted) (hb : s.up.outstanding = 1)
    (r : MemRequest) : (s.decideRequest r).answersCounted := by
  unfold State.answersCounted at hs ⊢
  rw [hb] at hs
  have hanswer : ∀ q, (s.up.answer q).received = (s.up.answer q).answers.length + (s.up.answer q).outstanding := by
    intro q
    obtain ⟨hreceived, hcount⟩ := s.up.answer_count q
    omega
  rcases s.decideRequest_cases r with h | ⟨-, h⟩ | ⟨-, h⟩ | ⟨-, -, h⟩ | h <;> rw [h]
  · exact hanswer _
  · exact hs
  · rcases (s.hold_leaves r (s.classify r)).2 with hu | hu <;> rw [hu]
    · exact hanswer _
    · exact hs
  · exact hs
  · exact hs

theorem finish_keeps_answersCounted {b a : State} (h : a.answersCounted) : (finish b a).answersCounted := by
  have hre : (redecide b a).answersCounted := by
    rcases redecide_cases b a with hr | ⟨reason, r, hst, hr⟩ <;> rw [hr]
    · exact h
    · exact State.answersCounted_decideRequest h (by simp [UpstreamPort.outstanding, hst]) r
  exact hre

theorem Does.keeps_answersCounted {c : Instr} {s t : State} (hs : s.answersCounted) (h : Does c s t) :
    t.answersCounted := by
  cases hc : refillsQueues c
  · exact (h.drains hc).answersCounted hs
  · cases c <;> simp only [refillsQueues, Bool.false_eq_true] at hc
    case pinReset =>
      subst h
      rfl
    case upstreamRequest r =>
      obtain ⟨hidle, rfl⟩ := State.receive_cases h
      refine State.answersCounted_decideRequest ?_ rfl r
      unfold State.answersCounted at hs
      have h0 : s.up.outstanding = 0 := by simp [UpstreamPort.outstanding, hidle]
      have hs' : s.up.received = s.up.answers.length := by rw [hs, h0]; rfl
      exact congrArg (· + 1) hs'
    case status | event | setoptWriteMode =>
      have hup := h.frame .up (by simp [footprint])
      unfold State.answersCounted at hs ⊢
      rw [hup]
      exact hs

/-! ## A frame is in progress only while CS is low (R175) -/

theorem State.frameFits_congr {s t : State} (h : s.frameFits) (hl : t.link = s.link) (hr : t.resetLow = s.resetLow) :
    t.frameFits := by
  unfold State.frameFits at h ⊢
  rw [hl, hr]
  exact h

theorem State.frameFits_of_no_frame {s : State} (h : s.link.frame = none) : s.frameFits := fun hf => absurd h hf

/-- Where a rise of CS ends no frame, there was none. -/
theorem State.frameFits_riseUnframed {s : State} (h : s.frameFits) (hc : s.resetLow = true ∨ s.link.frame = none) :
    s.riseUnframed.frameFits := by
  have hnone : s.link.frame = none := by
    rcases hc with hc | hc
    · by_contra hf
      exact Bool.false_ne_true ((h hf).2.symm.trans hc)
    · exact hc
  refine State.frameFits_of_no_frame ?_
  have : (s.link.riseUnframed).frame = s.link.frame := by
    unfold Link.riseUnframed
    split <;> rfl
  exact this.trans hnone

theorem claim_keeps_frameFits {c : Instr} {f : State → Option State} {s t : State} (hs : s.frameFits)
    (hd : ∀ u, f s = some u → Does c s u) (hl : Part.link ∉ footprint c) (hr : Part.resetLow ∉ footprint c)
    (h : claim f s = .next t) : t.frameFits := by
  rcases claim_does h with rfl | ⟨u, hu, rfl⟩
  · exact hs
  · have hframe := (hd u hu).frame
    exact State.frameFits_congr hs ((finish_link s u).trans (hframe .link hl))
      ((finish_resetLow s u).trans (hframe .resetLow hr))

theorem command_keeps_frameFits {f : State → Reply} {s t : State} (hs : s.frameFits) (h : command f s = .next t) :
    t.frameFits := by
  unfold command at h
  split at h
  · rename_i hc
    injection h with h
    exact h ▸ State.frameFits_riseUnframed hs hc
  · split at h <;> injection h with h <;> exact h ▸ State.frameFits_of_no_frame rfl

theorem query_keeps_frameFits {f : State → Reply} {s t : State} (hs : s.frameFits) (h : query f s = .next t) :
    t.frameFits := by
  unfold query at h
  split at h
  · rename_i hc
    injection h with h
    exact h ▸ State.frameFits_riseUnframed hs hc
  · split at h <;> injection h with h <;> exact h ▸ State.frameFits_of_no_frame rfl

theorem exec_keeps_frameFits {c : Instr} {s t : State} (hs : s.frameFits) (h : exec c s = .next t) : t.frameFits := by
  have hclaim := fun f => claim_keeps_frameFits (c := c) (f := f) (t := t) hs
  cases c
  case pinReset =>
    injection h with h
    exact h ▸ State.frameFits_of_no_frame rfl
  case resetnRelease b =>
    simp only [exec, execResetnRelease] at h
    split at h <;> injection h with h <;> subst h
    · exact fun hf => ⟨(hs hf).1, rfl⟩
    · exact hs
  case responseToAbandonedRequest => injection h with h; exact h ▸ hs
  case frameBegin =>
    simp only [exec, execFrameBegin] at h
    split at h <;> injection h with h <;> subst h
    · exact hs
    · intro hf
      cases hr : s.resetLow
      · exact ⟨rfl, rfl⟩
      · simp [hr] at hf
  case frameError bytes =>
    simp only [exec, execFrameError] at h
    split at h
    · rename_i hc
      injection h with h
      exact h ▸ State.frameFits_riseUnframed hs hc
    · split at h <;> injection h with h <;> subst h
      · exact State.frameFits_of_no_frame rfl
      · exact State.frameFits_of_no_frame rfl
      · exact hs
  case nop => exact query_keeps_frameFits (f := fun s => .done .ok [] s) hs h
  case status =>
    exact query_keeps_frameFits (f := fun s => .done .ok s.statusBlock { s with eq := { s.eq with lost := 0 } }) hs h
  case attachKeep | attachFormat | recover | detach | openEpoch | commit | rotate | rollback | abort | resume |
    discard | thaw => exact command_keeps_frameFits hs h
  case event | level | setwin | clrwin | setlog | setoptWriteMode | setoptRetryLimit | setoptLogFullPolicy |
    setoptHighWaterMark | setoptFaultPolicy | setoptRotationPeriod | setoptUnknownOption =>
    exact query_keeps_frameFits hs h
  case faultAssertion | faultDeassertion | upstreamRequest | rotationTimerExpiry | pendingRotationTaken |
    faultLatchTaken | consideration | downstreamGrant | downstreamReissue | masterReadComplete | masterWriteComplete |
    masterWriteFailed | captureReadComplete | capturePayloadWriteComplete | captureHeaderWriteComplete |
    captureRequestFailed | markerWriteComplete | markerWriteFailed | voidWriteComplete | voidWriteFailed |
    anchorWriteComplete | anchorWriteFailed | anchorReadComplete | tailReadComplete | replayReadComplete |
    restoreWriteComplete | scanReadComplete | recoveryReadComplete | recoveryRestoreComplete | attachDrainEnd |
    orderingWaitEnd | commitWaitEnd | rotateWaitEnd | settlingEnd | detachComplete =>
    exact hclaim _ (fun _ hu => hu) (by simp [footprint]) (by simp [footprint]) h

/-- Settles O53: the queues and the count of answers are kept by all that drains, by the five commands that may refill a
queue, and by the decision of a stalled request; the frame is followed form by form. -/
theorem queuesBoundedAnswersCounted : Obligations.QueuesBoundedAnswersCounted := by
  intro s t hstep
  refine ⟨fun hs => ?_, fun hs => ?_, fun hs => ?_⟩
  · exact step_keeps (inv := State.queuesBounded) (fun _ _ h => h) (fun _ _ h => h) (fun _ _ h => h)
      (fun _ _ _ h => finish_keeps_queuesBounded h) (fun _ _ _ h hd => hd.keeps_queuesBounded h) hs hstep
  · exact step_keeps (inv := State.answersCounted) (fun _ _ h => h) (fun _ _ h => h) (fun _ _ h => h)
      (fun _ _ _ h => finish_keeps_answersCounted h) (fun _ _ _ h hd => hd.keeps_answersCounted h) hs hstep
  · unfold step at hstep
    split at hstep
    · injection hstep with hstep
      subst hstep
      unfold State.tick
      split <;> exact hs
    · rename_i c rest _
      exact exec_keeps_frameFits (s := { s with pending := rest }) hs hstep

end Sys2Proof.Machine

/-! SUPPORT. A stalled request stays stalled only where the treatment table holds it. -/

namespace Sys2Proof.Machine

/-! ## What justifies a stall -/

/-- The treatment of a request, in the part's situation. -/
def State.treats (s : State) (r : MemRequest) : Treatment :=
  treatment s.oc.mode s.oc.op (s.classify r) r.isWrite

/-- Where no request is stalled there is nothing to justify. -/
theorem State.stallsJustified_of_unstalled {s : State} (h : s.up.unstalled) : s.stallsJustified := by
  unfold State.stallsJustified
  split
  · exact absurd (by assumption) (h _ _)
  · exact absurd (by assumption) (h _ _)
  all_goals trivial

theorem State.classify_congr {s t : State} (hw : t.windows = s.windows) (hg : t.log = s.log) (r : MemRequest) :
    t.classify r = s.classify r := by
  unfold State.classify State.tracked
  rw [hw, hg]

/-- A stall is justified by situation, windows and log configuration alone. -/
theorem State.stallsJustified_congr {s t : State} (h : s.stallsJustified) (hu : t.up = s.up)
    (hs : t.situation = s.situation) (hw : t.windows = s.windows) (hg : t.log = s.log) : t.stallsJustified := by
  obtain ⟨hm, ho⟩ := Prod.mk.inj hs
  have hc := State.classify_congr hw hg
  unfold State.stallsJustified at h ⊢
  simp only [hu, hm, ho, hc]
  exact h

/-- A decision stalls a request only where the table says so. -/
theorem State.stallsJustified_decideRequest (s : State) (r : MemRequest) : (s.decideRequest r).stallsJustified := by
  rcases s.decideRequest_cases r with h | ⟨ht, h⟩ | ⟨-, h⟩ | ⟨hw, ht, h⟩ | h <;> rw [h]
  · exact State.stallsJustified_of_unstalled (s.up.answer_unstalled _)
  · exact ht
  · refine State.stallsJustified_of_unstalled ?_
    rcases (s.hold_leaves r (s.classify r)).2 with hu | hu <;> rw [hu]
    · exact s.up.answer_unstalled _
    · exact fun _ _ hst => by cases hst
  · exact ⟨hw, ht⟩
  · exact State.stallsJustified_of_unstalled fun _ _ hst => by cases hst

/-- In OFFLINE every class but BAD passes, and windows and log configuration do not tell BAD requests from others, so a
stall that is justified there stays so whatever they become. -/
theorem State.stallsJustified_offline {s t : State} (h : s.stallsJustified) (hm : s.oc.mode = .offline)
    (hu : t.up = s.up) (hs : t.situation = s.situation) : t.stallsJustified := by
  obtain ⟨hm', ho'⟩ := Prod.mk.inj hs
  have hbad : ∀ u : State, ∀ r, u.classify r = .bad ↔ requestBad r = true := by
    intro u r
    unfold State.classify
    split
    · simp_all
    · split
      · simp_all
      · split <;> simp_all
  have htreat : ∀ op cls w, treatment .offline op cls w = if cls = .bad then .refuse else .take := by
    intro op cls w
    cases cls <;> simp [treatment, trackTreatment]
  unfold State.stallsJustified at h ⊢
  simp only [hu, hm', ho', hm, htreat, hbad] at h ⊢
  exact h

/-! ## Each command, and what follows at once -/

/-- What a command's own effect leaves at the port: the request as it stood, or none that is stalled. -/
theorem Drains.port_unstalled {s t : State} (h : Drains s t) : t.up = s.up ∨ t.up.unstalled := by
  rcases h.port with hp | ⟨r, hp⟩
  · exact .inl hp
  · exact .inr (hp ▸ s.up.answer_unstalled r)

/-- SETWIN, CLRWIN and SETLOG alone change the map, in OFFLINE, and they change neither request nor situation. -/
theorem Does.map_or_offline {c : Instr} {s t : State} (h : Does c s t) (hc : c ≠ .pinReset) :
    (t.windows = s.windows ∧ t.log = s.log) ∨ s.oc.mode = .offline ∧ t.up = s.up := by
  have hoff : ∀ l : List (Bool × ResultCode), firstFailure ((decide (s.oc.mode = .offline), .state) :: l) = none →
      s.oc.mode = .offline := fun l hl => by
    simpa using firstFailure_eq_none.mp hl (decide (s.oc.mode = .offline), .state) (List.mem_cons_self ..)
  cases c
  case pinReset => exact absurd rfl hc
  case setwin =>
    refine .inr ⟨?_, h.frame .up (by simp [footprint])⟩
    simp only [Does, State.setwin] at h
    split at h
    · simp [Reply.leaves_refuse] at h
    · exact hoff _ (by assumption)
  case clrwin =>
    refine .inr ⟨?_, h.frame .up (by simp [footprint])⟩
    simp only [Does, State.clrwin] at h
    split at h
    · simp [Reply.leaves_refuse] at h
    · exact hoff _ (by assumption)
  case setlog => exact .inr ⟨(State.setlog_cases h).1, h.frame .up (by simp [footprint])⟩
  all_goals exact .inl ⟨h.frame .windows (by simp [footprint]), h.frame .log (by simp [footprint])⟩

/-- While the situation stands, a command's own effect keeps the stall justified. -/
theorem Does.keeps_stallsJustified {c : Instr} {s t : State} (hs : s.stallsJustified) (h : Does c s t)
    (hsit : t.situation = s.situation) : t.stallsJustified := by
  by_cases hreset : c = .pinReset
  · subst hreset
    have ht : t.up.state = .idle := by rw [show t = _ from h]; rfl
    exact State.stallsJustified_of_unstalled fun _ _ hst => by rw [ht] at hst; cases hst
  · have hup : (∃ r, c = .upstreamRequest r) ∨ t.up = s.up ∨ t.up.unstalled := by
      cases hc : refillsQueues c
      · exact .inr (h.drains hc).port_unstalled
      · cases c <;> simp only [refillsQueues, Bool.false_eq_true] at hc
        case pinReset => exact absurd rfl hreset
        case upstreamRequest r => exact .inl ⟨r, rfl⟩
        all_goals exact .inr (.inl (h.frame .up (by simp [footprint])))
    rcases hup with ⟨r, rfl⟩ | hup | hup
    · obtain ⟨-, rfl⟩ := State.receive_cases h
      exact State.stallsJustified_decideRequest _ r
    · rcases h.map_or_offline hreset with ⟨hw, hg⟩ | ⟨hm, -⟩
      · exact State.stallsJustified_congr hs hup hsit hw hg
      · exact State.stallsJustified_offline hs hm hup hsit
    · exact State.stallsJustified_of_unstalled hup

/-- What follows decides a stalled request again where the situation changed, so that a stall need only be justified
before it where the situation stands. -/
theorem finish_stallsJustified {s u : State} (hu : u.situation = s.situation → u.stallsJustified) :
    (finish s u).stallsJustified := by
  have hfinish : (redecide s u).stallsJustified → (finish s u).stallsJustified := fun h => h
  refine hfinish ?_
  cases hst : u.up.state
  case stalled reason r =>
    rw [redecide_stalled hst]
    split
    · exact u.stallsJustified_decideRequest r
    · rename_i hcond
      exact hu (by_contra fun hne => hcond (.inl fun h => hne h.symm))
  all_goals
    have hun : u.up.unstalled := fun a b h => by rw [hst] at h; cases h
    rw [redecide_unstalled hun]
    exact State.stallsJustified_of_unstalled hun

theorem exec_keeps_stallsJustified {c : Instr} {s t : State} (hs : s.stallsJustified) (h : exec c s = .next t) :
    t.stallsJustified := by
  rcases exec_ends h with ⟨b, rfl⟩ | rfl | ⟨l, rfl⟩ | ⟨u, l, hd, rfl⟩ | ⟨u, l, hd, rfl, hu⟩
  · simp only [exec, execResetnRelease] at h
    split at h <;> injection h with h <;> subst h <;> exact hs
  · injection h with h
    exact h ▸ State.stallsJustified_of_unstalled fun _ _ hst => by cases hst
  · exact hs
  · have hlink : (finish s u).stallsJustified → State.stallsJustified { finish s u with link := l } := fun h => h
    exact hlink (finish_stallsJustified fun hsit => hd.keeps_stallsJustified hs hsit)
  · have hlink : u.stallsJustified → State.stallsJustified { u with link := l } := fun h => h
    have hoc : u.oc = s.oc := hu .oc (by decide)
    exact hlink (hd.keeps_stallsJustified hs (by rw [State.situation, State.situation, hoc]))

/-- Settles O60: what follows at once decides a stalled request again wherever the situation has changed, and a stall of
the same situation stays justified, the map changing in OFFLINE alone. -/
theorem stallsStayJustified : Obligations.StallsStayJustified := by
  intro s t _ hs hstep
  unfold step at hstep
  split at hstep
  · injection hstep with hstep
    subst hstep
    unfold State.tick
    split <;> exact hs
  · rename_i c rest _
    exact exec_keeps_stallsJustified (s := { s with pending := rest }) hs hstep

end Sys2Proof.Machine

/-! SUPPORT. The form of each command's meaning (a claim, a link command, a query, or one of the five written out), the
step and the values after reset, the RESETn line, and the frames and queries of the management link. -/

namespace Sys2Proof.Machine

/-! ## The form of a meaning -/

/-- A command that has a frame is taken at the rise of CS, as a link command or as a query. -/
theorem exec_of_frame {c : Instr} (h : encodeFrame c ≠ none) : ∃ f, exec c = command f ∨ exec c = query f := by
  cases c
  case nop => exact ⟨fun s => .done .ok [] s, .inr rfl⟩
  case status => exact ⟨fun s => .done .ok s.statusBlock { s with eq := { s.eq with lost := 0 } }, .inr rfl⟩
  case event | level | setwin | clrwin | setlog | setoptWriteMode | setoptRetryLimit | setoptLogFullPolicy |
    setoptHighWaterMark | setoptFaultPolicy | setoptRotationPeriod | setoptUnknownOption => exact ⟨_, .inr rfl⟩
  case attachKeep | attachFormat | recover | detach | openEpoch | commit | rotate | rollback | abort | resume |
    discard | thaw => exact ⟨_, .inl rfl⟩
  all_goals exact absurd rfl h

/-- The commands that are neither claims nor taken from a frame. -/
def writtenOut : Instr → Bool
  | .pinReset => true
  | .resetnRelease _ => true
  | .responseToAbandonedRequest _ => true
  | .frameBegin => true
  | .frameError _ => true
  | _ => false

theorem exec_of_no_frame {c : Instr} (h : encodeFrame c = none) (hs : writtenOut c = false) :
    ∃ f, exec c = claim f := by
  cases c
  case pinReset | resetnRelease | responseToAbandonedRequest | frameBegin | frameError => cases hs
  case nop | status | event | level | setwin | clrwin | setlog | setoptWriteMode | setoptRetryLimit |
    setoptLogFullPolicy | setoptHighWaterMark | setoptFaultPolicy | setoptRotationPeriod | setoptUnknownOption |
    attachKeep | attachFormat | recover | detach | openEpoch | commit | rotate | rollback | abort | resume |
    discard | thaw => cases h
  all_goals exact ⟨_, rfl⟩

/-- Where RESETn is low or no frame is in progress, a rise of CS ends nothing, whatever the frame would have said. -/
theorem exec_unframed {c : Instr} {s : State} (hc : encodeFrame c ≠ none ∨ ∃ bytes, c = .frameError bytes)
    (hs : s.resetLow = true ∨ s.link.frame = none) : exec c s = .next s.riseUnframed := by
  rcases hc with hc | ⟨bytes, rfl⟩
  · obtain ⟨f, hf | hf⟩ := exec_of_frame hc <;> rw [hf]
    · exact hs.elim command_low command_unframed
    · exact hs.elim query_low query_unframed
  · exact if_pos hs

/-- A link command whose owner leaves the link alone ends with its result in the buffer. -/
theorem command_showing {f : State → Reply} {s t : State} {code : ResultCode} {data : List Byte} (h : s.linked)
    (hf : f s = .done code data t) (hl : t.link = s.link) :
    command f s = .next { finish s t with link := s.link.showing code data } := by
  rw [command_done h hf]
  unfold State.setResult
  rw [finish_link, hl]

/-! ## The step and reset -/

/-- Settles O1: it is the step's own case of a queue that is not empty. -/
theorem stepRunsFrontCommand : Obligations.StepRunsFrontCommand := by
  intro s c rest h
  unfold step
  rw [h]

/-- Settles O2, the timer's three cases: STOPPED, at zero, above it. -/
theorem idleStepIsOneMillisecond : Obligations.IdleStepIsOneMillisecond := by
  intro s hp
  have hstep : step s = .next s.tick := by
    unfold step
    rw [hp]
  refine ⟨fun h => ?_, fun h => ?_, fun n h => ?_⟩ <;> rw [hstep] <;> unfold State.tick <;> rw [h]

theorem State.reset_orderly : State.reset.orderly := by
  refine ⟨⟨?_, ?_, ?_, ?_, ?_⟩, ?_, ?_, ?_, ?_, ?_, ?_⟩ <;> decide +kernel

theorem State.reset_operationFits : State.reset.operationFits :=
  ⟨by decide +kernel, fun x h => absurd h (List.not_mem_nil (a := x)), by decide +kernel, by decide +kernel,
    fun o h => absurd h (List.not_mem_nil (a := o)), by decide +kernel, fun r h => absurd h (List.not_mem_nil (a := r))⟩

/-- Settles O3: the values stand in `State.reset`, and each invariant is met where nothing is queued, held or at work. -/
theorem resetValues : Obligations.ResetValues := by
  refine ⟨by decide +kernel, by decide +kernel, by decide +kernel, by decide +kernel, by decide +kernel,
    by decide +kernel, ?_, rfl, State.reset_mapDisjoint, ?_, State.reset_orderly, ?_, ?_, State.reset_quiet, trivial,
    State.reset_operationFits, ?_, ?_⟩
  · decide
  · decide +kernel
  · decide +kernel
  · decide +kernel
  · exact fun e h => absurd h (List.not_mem_nil (a := e))
  · exact State.frameFits_of_no_frame rfl

/-- Settles O5, form by form: a claim, a link command and a query each end in a next state, and so do the five commands
written out. -/
theorem everyCommandAnswersNext : Obligations.EveryCommandAnswersNext := by
  intro c s
  by_cases hf : encodeFrame c = none
  · cases hs : writtenOut c
    · obtain ⟨f, hc⟩ := exec_of_no_frame hf hs
      rw [hc]
      rcases claim_cases f s with h | ⟨t, -, -, h⟩ <;> exact ⟨_, h⟩
    · cases c
      case pinReset => exact ⟨_, rfl⟩
      case resetnRelease => simp only [exec, execResetnRelease]; split <;> exact ⟨_, rfl⟩
      case responseToAbandonedRequest => exact ⟨_, rfl⟩
      case frameBegin => simp only [exec, execFrameBegin]; split <;> exact ⟨_, rfl⟩
      case frameError =>
        simp only [exec, execFrameError]
        split
        · exact ⟨_, rfl⟩
        · split <;> exact ⟨_, rfl⟩
      all_goals cases hs
  · obtain ⟨f, hc | hc⟩ := exec_of_frame hf <;> rw [hc]
    · rcases command_cases f s with h | ⟨code, -, h⟩ | ⟨code, data, t, -, h⟩ <;> exact ⟨_, h⟩
    · rcases query_cases f s with h | ⟨code, -, h⟩ | ⟨code, data, t, -, h⟩ <;> exact ⟨_, h⟩

/-! ## The RESETn line and CS -/

theorem State.riseUnframed_of_low {s : State} (h : s.link.csLow = true) :
    s.riseUnframed = { s with link := { s.link with csLow := false, unframed := s.link.unframed + 1 } } := by
  simp [State.riseUnframed, Link.riseUnframed, h]

theorem State.riseUnframed_of_high {s : State} (h : s.link.csLow = false) : s.riseUnframed = s := by
  simp [State.riseUnframed, Link.riseUnframed, h]

theorem exec_frameBegin_of_low {s : State} (h : s.link.csLow = true) : exec .frameBegin s = .next s := if_pos h

theorem exec_frameBegin_of_high {s : State} (h : s.link.csLow = false) :
    exec .frameBegin s = .next { s with link := { s.link with
      csLow := true, frame := if s.resetLow then none else some s.link.result } } :=
  if_neg (by simp [h])

/-- Settles O4: PIN_RESET and the release are written out; while RESETn is low a claim does not occur, a rise of CS ends
no frame and a fall begins none. -/
theorem resetLineAbandonsEverything : Obligations.ResetLineAbandonsEverything := by
  refine ⟨fun s faultActive r => ⟨rfl, fun h => if_pos h, rfl⟩, ?_⟩
  intro c s hr hpin hrel endsFrame
  refine ⟨?_, ?_, ?_⟩
  · rintro rfl hcs
    rw [exec_frameBegin_of_high hcs, hr]
    rfl
  · intro he hcs
    rw [exec_unframed he (.inl hr), State.riseUnframed_of_low hcs]
  · intro hfall hrise
    by_cases he : endsFrame
    · rw [exec_unframed he (.inl hr), State.riseUnframed_of_high (hrise he)]
    · have hf : encodeFrame c = none := by
        by_contra hf
        exact he (.inl hf)
      cases hs : writtenOut c
      · obtain ⟨f, hc⟩ := exec_of_no_frame hf hs
        rw [hc]
        exact claim_low hr
      · cases c
        case pinReset => exact absurd rfl hpin
        case resetnRelease b => exact absurd rfl (hrel b)
        case responseToAbandonedRequest => rfl
        case frameBegin => exact exec_frameBegin_of_low (hfall rfl)
        case frameError bytes => exact absurd (.inr ⟨bytes, rfl⟩) he
        all_goals cases hs

/-! ## Frames and queries -/

theorem State.sdo_of_frame {s : State} {buffer : ResultBuffer} (h : s.link.frame = some buffer) (i : Nat) :
    s.sdo i = some (buffer.shiftOut i) := by
  simp [State.sdo, h]

theorem State.sdo_of_no_frame {s : State} (h : s.link.frame = none) (i : Nat) :
    s.sdo i = if s.link.csLow then some (Config.unframedByte s.link.unframed i) else none := by
  simp [State.sdo, h]

theorem exec_frameError_linked {s : State} (hl : s.linked) (bytes : List Byte) :
    exec (.frameError bytes) s =
      match decodeFrame bytes with
      | .discarded => .next { s with link := { s.link with frame := none, csLow := false } }
      | .bad => .next (s.setResult .frame [])
      | .taken _ => .next s :=
  if_neg (by simp [hl.1, hl.2])

/-- Settles O7: a fall of CS, what SDO shifts out with and without a frame, the two frames that spell no command, and a
rise of CS with no frame in progress. -/
theorem framesOnTheLink : Obligations.FramesOnTheLink := by
  intro s
  refine ⟨fun hrun hcs => ?_, exec_frameBegin_of_low, fun buffer hb => ?_, fun hn => ⟨fun hcs i => ?_, fun hcs i => ?_⟩,
    fun hl => ?_, fun bytes hl hbad => ?_, fun c hc hn => ?_⟩
  · rw [exec_frameBegin_of_high hcs, hrun]
    rfl
  · exact ⟨State.sdo_of_frame hb 0, State.sdo_of_frame hb 1, fun i => State.sdo_of_frame hb (i + 2)⟩
  · rw [State.sdo_of_no_frame hn, if_pos hcs]
  · rw [State.sdo_of_no_frame hn, if_neg (by simp [hcs])]
  · exact exec_frameError_linked hl []
  · rw [exec_frameError_linked hl, hbad]
    rfl
  · rw [exec_unframed hc (.inr hn)]
    rfl

theorem bigEndianNat_length (n : Nat) : (bigEndianNat n).length = 4 := rfl

/-- Level `k` of the stack, where `k` counts from 1. -/
theorem Controller.level_of_ne_zero (oc : Controller) {k : Nat} (h : k ≠ 0) : oc.level k = oc.stack[k - 1]? := if_neg h

theorem Controller.level_eq_none {oc : Controller} {k : Nat} (h : k = 0 ∨ oc.stack.length < k) : oc.level k = none := by
  by_cases hk : k = 0
  · exact if_pos hk
  · rw [Controller.level_of_ne_zero oc hk]
    exact List.getElem?_eq_none (by omega)

theorem exec_level_of_none {s : State} {k : Byte} (hl : s.linked) (h : s.oc.level k.toNat = none) :
    exec (.level k) s = .next { s with link := s.link.showing .arg [] } := by
  have hr : State.readLevel k s = .refuse .arg := by simp only [State.readLevel, h]
  exact query_refuse hl hr

theorem exec_level_of_some {s : State} {k : Byte} {l : Level} (hl : s.linked) (h : s.oc.level k.toNat = some l) :
    exec (.level k) s = .next { s with link := s.link.showing .ok l.block } := by
  have hd : State.readLevel k s = .done .ok l.block s := by simp only [State.readLevel, h]
  exact query_done hl hd

theorem Level.block_eq (l : Level) :
    l.block = bigEndian l.serial ++ (l.start.elim (bigEndian 0xFFFFFFFF#32) bigEndianNat) ++ bigEndian l.captures
      ++ [(if l.durable then 1 else 0) ||| (if l.broken then 2 else 0)] := by
  unfold Level.block
  cases l.start <;> rfl

/-- Settles O8: the code tables, and each query's own answer. -/
theorem linkQueriesAnswered : Obligations.LinkQueriesAnswered := by
  refine ⟨by decide, fun s hl => ⟨⟨?_, ?_, rfl, ?_, rfl⟩, fun h => ?_, fun e rest h => ?_, fun k hk => ?_, fun k l hk h => ?_⟩⟩
  · exact query_done (f := fun s => .done .ok [] s) hl rfl
  · exact query_done (f := fun s => .done .ok s.statusBlock { s with eq := { s.eq with lost := 0 } }) hl rfl
  · have hbusy : s.ce.busyCount = s.ce.contexts.countP Option.isSome := List.countP_eq_length_filter.symm
    rw [← hbusy]
    rfl
  · have hr : s.readEvent = .refuse .empty := by simp only [State.readEvent, h]
    exact query_refuse hl hr
  · exact exec_event_of_cons hl h
  · exact exec_level_of_none hl (Controller.level_eq_none (hk.imp (fun h => by rw [h]; rfl) id))
  · have hne : k.toNat ≠ 0 := fun h0 => hk (BitVec.eq_of_toNat_eq h0)
    rw [← Level.block_eq]
    exact exec_level_of_some hl ((Controller.level_of_ne_zero _ hne).trans h)

end Sys2Proof.Machine

/-! SUPPORT. The settings of SETOPT: the general checks, each owner's own, and the frames of the link's commands. -/

namespace Sys2Proof.Machine

/-! ## SETOPT's checks (R180) -/

section
variable {s : State} {checks : List (Bool × ResultCode)} {t : State}

theorem firstFailure_append_of_some {l m : List (Bool × ResultCode)} {code : ResultCode}
    (h : firstFailure l = some code) : firstFailure (l ++ m) = some code := by
  induction l with
  | nil => cases h
  | cons p rest ih =>
    obtain ⟨ok, c⟩ := p
    cases ok
    · exact h
    · exact ih h

theorem State.setOption_of_general {code : ResultCode} (h : firstFailure s.optionChecks = some code) :
    s.setOption checks t = .refuse code := by
  simp only [State.setOption, firstFailure_append_of_some h]

theorem State.optionChecks_elsewhere (h : s.oc.mode ≠ .offline) (h' : s.oc.mode ≠ .online) :
    firstFailure s.optionChecks = some .state := by
  simp [State.optionChecks, firstFailure, h, h']

theorem State.optionChecks_at_work (h : s.oc.mode = .online) (h' : s.oc.op ≠ .idle) :
    firstFailure s.optionChecks = some .busy := by
  simp [State.optionChecks, firstFailure, h, h']

theorem State.optionChecks_at_depth (h : s.oc.mode = .online) (h' : s.oc.op = .idle) (hd : s.oc.stack ≠ []) :
    firstFailure s.optionChecks = some .depth := by
  simp [State.optionChecks, firstFailure, h, h', Controller.depth, hd]

end

/-- Every SETOPT is a query whose owner makes the general checks first. -/
theorem exec_setopt {v : Word32} {id : Byte} {c : Instr}
    (hc : c ∈ [.setoptWriteMode v, .setoptRetryLimit v, .setoptLogFullPolicy v, .setoptHighWaterMark v,
      .setoptFaultPolicy v, .setoptRotationPeriod v, .setoptUnknownOption id v]) (s : State) :
    ∃ f checks t, exec c s = query f s ∧ f s = s.setOption checks t := by
  simp only [List.mem_cons, List.not_mem_nil, or_false] at hc
  rcases hc with rfl | rfl | rfl | rfl | rfl | rfl | rfl <;> exact ⟨_, _, _, rfl, rfl⟩

theorem exec_setopt_refused {v : Word32} {id : Byte} {c : Instr} {s : State} {code : ResultCode} (hl : s.linked)
    (hc : c ∈ [.setoptWriteMode v, .setoptRetryLimit v, .setoptLogFullPolicy v, .setoptHighWaterMark v,
      .setoptFaultPolicy v, .setoptRotationPeriod v, .setoptUnknownOption id v])
    (h : firstFailure s.optionChecks = some code) :
    exec c s = .next { s with link := s.link.showing code [] } := by
  obtain ⟨f, checks, t, hexec, hf⟩ := exec_setopt hc s
  rw [hexec]
  exact query_refuse hl (hf.trans (State.setOption_of_general h))

/-- The general checks passed, the owner's own decide between its refusal and the option set. -/
theorem query_setOption {f : State → Reply} {s t : State} {checks : List (Bool × ResultCode)} (hl : s.linked)
    (ho : s.oc.mode = .offline ∨ (s.oc.mode = .online ∧ s.oc.op = .idle ∧ s.oc.stack = []))
    (hf : f s = s.setOption checks t) :
    query f s =
      match firstFailure checks with
      | some code => .next { s with link := s.link.showing code [] }
      | none => .next { t with link := t.link.showing .ok [] } := by
  rw [State.setOption_open ho] at hf
  cases hc : firstFailure checks with
  | some code => rw [hc] at hf; exact query_refuse hl hf
  | none => rw [hc] at hf; exact query_done hl hf

/-! ## Each option -/

theorem writeModeOf_other {v : Word32} (h0 : v ≠ 0) (h1 : v ≠ 1) : writeModeOf v = none := by
  unfold writeModeOf
  rw [if_neg h0, if_neg h1]

theorem logFullOf_other {v : Word32} (h0 : v ≠ 0) (h1 : v ≠ 1) : logFullOf v = none := by
  unfold logFullOf
  rw [if_neg h0, if_neg h1]

theorem faultPolicyOf_other {v : Word32} (h0 : v ≠ 0) (h1 : v ≠ 1) (h2 : v ≠ 2) (h3 : v ≠ 3) :
    faultPolicyOf v = none := by
  unfold faultPolicyOf
  rw [if_neg h0, if_neg h1, if_neg h2, if_neg h3]

section
variable {s : State} (hl : s.linked)
  (ho : s.oc.mode = .offline ∨ (s.oc.mode = .online ∧ s.oc.op = .idle ∧ s.oc.stack = [])) (v : Word32)
include hl ho

theorem exec_setoptUnknownOption_open (id : Byte) :
    exec (.setoptUnknownOption id v) s = .next { s with link := s.link.showing .arg [] } :=
  query_setOption (f := State.unknownOption) hl ho rfl

theorem exec_setoptWriteMode_open :
    exec (.setoptWriteMode v) s =
      (if v = 0 then
        if 1 < s.hq.entries.length then .next { s with link := s.link.showing .busy [] }
        else .next { s with opts := { s.opts with writeMode := .strict }, link := s.link.showing .ok [] }
      else if v = 1 then .next { s with opts := { s.opts with writeMode := .posted }, link := s.link.showing .ok [] }
      else .next { s with link := s.link.showing .arg [] }) := by
  refine (query_setOption (f := State.setWriteMode v) hl ho rfl).trans ?_
  by_cases h0 : v = 0
  · subst h0
    by_cases hq : 1 < s.hq.entries.length
    · rw [if_pos rfl, if_pos hq, firstFailure_cons_of_passes (ok := (writeModeOf 0).isSome) rfl,
        firstFailure_cons_of_fails (by simpa [writeModeOf] using hq)]
    · rw [if_pos rfl, if_neg hq, firstFailure_cons_of_passes (ok := (writeModeOf 0).isSome) rfl,
        firstFailure_cons_of_passes (by simpa using .inr (Nat.not_lt.mp hq))]
      rfl
  · rw [if_neg h0]
    by_cases h1 : v = 1
    · subst h1
      rfl
    · rw [if_neg h1, firstFailure_cons_of_fails (by rw [writeModeOf_other h0 h1]; rfl)]

theorem exec_setoptRetryLimit_open :
    exec (.setoptRetryLimit v) s =
      (if 1 ≤ v.toNat ∧ v.toNat ≤ 15 then
        .next { s with opts := { s.opts with retryLimit := v.toNat }, link := s.link.showing .ok [] }
      else .next { s with link := s.link.showing .arg [] }) := by
  refine (query_setOption (f := State.setRetryLimit v) hl ho rfl).trans ?_
  by_cases h : 1 ≤ v.toNat ∧ v.toNat ≤ 15
  · rw [if_pos h, firstFailure_cons_of_passes (by simpa using h)]
    rfl
  · rw [if_neg h, firstFailure_cons_of_fails (by simpa using h)]

theorem exec_setoptLogFullPolicy_open :
    exec (.setoptLogFullPolicy v) s =
      (if v = 0 then .next { s with opts := { s.opts with logFull := .stall }, link := s.link.showing .ok [] }
      else if v = 1 then .next { s with opts := { s.opts with logFull := .break_ }, link := s.link.showing .ok [] }
      else .next { s with link := s.link.showing .arg [] }) := by
  refine (query_setOption (f := State.setLogFull v) hl ho rfl).trans ?_
  by_cases h0 : v = 0
  · subst h0
    rfl
  · rw [if_neg h0]
    by_cases h1 : v = 1
    · subst h1
      rfl
    · rw [if_neg h1, logFullOf_other h0 h1]
      rfl

theorem exec_setoptHighWaterMark_open :
    exec (.setoptHighWaterMark v) s =
      (if v.toNat ≤ s.log.slots then
        .next { s with
          opts := { s.opts with highWater := v.toNat }, lc := { s.lc with armed := true }, link := s.link.showing .ok [] }
      else .next { s with link := s.link.showing .arg [] }) := by
  refine (query_setOption (f := State.setHighWater v) hl ho rfl).trans ?_
  by_cases h : v.toNat ≤ s.log.slots <;> simp [firstFailure, h]

theorem exec_setoptFaultPolicy_open :
    exec (.setoptFaultPolicy v) s =
      (if v = 0 then .next { s with opts := { s.opts with faultPolicy := .ignore }, link := s.link.showing .ok [] }
      else if v = 1 then .next { s with opts := { s.opts with faultPolicy := .freeze }, link := s.link.showing .ok [] }
      else if v = 2 then .next { s with opts := { s.opts with faultPolicy := .inner }, link := s.link.showing .ok [] }
      else if v = 3 then .next { s with opts := { s.opts with faultPolicy := .all }, link := s.link.showing .ok [] }
      else .next { s with link := s.link.showing .arg [] }) := by
  refine (query_setOption (f := State.setFaultPolicy v) hl ho rfl).trans ?_
  by_cases h0 : v = 0
  · subst h0
    rfl
  by_cases h1 : v = 1
  · subst h1
    rfl
  by_cases h2 : v = 2
  · subst h2
    rfl
  by_cases h3 : v = 3
  · subst h3
    rfl
  · rw [if_neg h0, if_neg h1, if_neg h2, if_neg h3, faultPolicyOf_other h0 h1 h2 h3]
    rfl

theorem exec_setoptRotationPeriod_open :
    exec (.setoptRotationPeriod v) s =
      (if v.toNat ≤ 60000 then
        .next { s with opts := { s.opts with rotationPeriod := v.toNat }, link := s.link.showing .ok [] }
      else .next { s with link := s.link.showing .arg [] }) := by
  refine (query_setOption (f := State.setRotationPeriod v) hl ho rfl).trans ?_
  by_cases h : v.toNat ≤ 60000 <;> simp [firstFailure, Config.maxPeriod, h]

end

/-- Settles O12: the general checks answer alike for every option; once they pass, each owner's own decide. -/
theorem setoptChecked : Obligations.SetoptChecked := by
  intro s v id c hl hc
  refine ⟨fun h h' => ?_, fun h h' => ?_, fun h h' hd => ?_, fun ho => ⟨?_, ?_, ?_, ?_, ?_, ?_, ?_⟩⟩
  · exact exec_setopt_refused hl hc (State.optionChecks_elsewhere h h')
  · exact exec_setopt_refused hl hc (State.optionChecks_at_work h h')
  · exact exec_setopt_refused hl hc (State.optionChecks_at_depth h h' hd)
  · exact exec_setoptUnknownOption_open hl ho v id
  · exact exec_setoptWriteMode_open hl ho v
  · exact exec_setoptRetryLimit_open hl ho v
  · exact exec_setoptLogFullPolicy_open hl ho v
  · exact exec_setoptHighWaterMark_open hl ho v
  · exact exec_setoptFaultPolicy_open hl ho v
  · exact exec_setoptRotationPeriod_open hl ho v

/-! ## Frames (R175, R176) -/

/-- The option ids that are none of R180's. -/
theorem setoptCommand_unknown {id : Byte} {v : Word32} (h : id = 0 ∨ 6 < id.toNat) :
    setoptCommand id v = .setoptUnknownOption id v := by
  have hne : ∀ k : Byte, 1 ≤ k.toNat → k.toNat ≤ 6 → id ≠ k := by
    rintro k h1 h6 rfl
    rcases h with rfl | h
    · exact absurd h1 (by decide)
    · omega
  unfold setoptCommand
  rw [if_neg (hne 1 (by decide) (by decide)), if_neg (hne 2 (by decide) (by decide)),
    if_neg (hne 3 (by decide) (by decide)), if_neg (hne 4 (by decide) (by decide)),
    if_neg (hne 5 (by decide) (by decide)), if_neg (hne 6 (by decide) (by decide))]

theorem decodeFrame_setwin (i m : Byte) (base limit : Word32) (extra : List Byte) :
    decodeFrame (0x10 :: i :: (argumentBytes base ++ argumentBytes limit ++ [m]) ++ extra) =
      .taken (.setwin i base limit m) := by
  have h : decodeFrame (0x10 :: i :: (argumentBytes base ++ argumentBytes limit ++ [m]) ++ extra) =
      .taken (.setwin i (argument32 (base.extractLsb' 24 8) (base.extractLsb' 16 8) (base.extractLsb' 8 8)
        (base.extractLsb' 0 8)) (argument32 (limit.extractLsb' 24 8) (limit.extractLsb' 16 8) (limit.extractLsb' 8 8)
        (limit.extractLsb' 0 8)) m) := rfl
  rw [h, argument32_bytes, argument32_bytes]

theorem decodeFrame_setlog (base slots : Word32) (extra : List Byte) :
    decodeFrame (0x12 :: (argumentBytes base ++ argumentBytes slots) ++ extra) = .taken (.setlog base slots) := by
  have h : decodeFrame (0x12 :: (argumentBytes base ++ argumentBytes slots) ++ extra) =
      .taken (.setlog (argument32 (base.extractLsb' 24 8) (base.extractLsb' 16 8) (base.extractLsb' 8 8)
        (base.extractLsb' 0 8)) (argument32 (slots.extractLsb' 24 8) (slots.extractLsb' 16 8) (slots.extractLsb' 8 8)
        (slots.extractLsb' 0 8))) := rfl
  rw [h, argument32_bytes, argument32_bytes]

theorem decodeFrame_setopt (id : Byte) (v : Word32) (extra : List Byte) :
    decodeFrame (0x13 :: id :: argumentBytes v ++ extra) = .taken (setoptCommand id v) := by
  have h : decodeFrame (0x13 :: id :: argumentBytes v ++ extra) =
      .taken (setoptCommand id (argument32 (v.extractLsb' 24 8) (v.extractLsb' 16 8) (v.extractLsb' 8 8)
        (v.extractLsb' 0 8))) := rfl
  rw [h, argument32_bytes]

/-- Settles O13: the frames written out evaluate; the frame of a command is its code and its arguments' bytes, which
spell the arguments again. -/
theorem framesDecodeToCommands : Obligations.FramesDecodeToCommands := by
  refine ⟨by decide, fun i bytes extra hwf hb => ?_⟩
  cases i
  case setwin i base limit m => cases hb; exact decodeFrame_setwin i m base limit extra
  case setlog base slots => cases hb; exact decodeFrame_setlog base slots extra
  case setoptWriteMode v | setoptRetryLimit v | setoptLogFullPolicy v | setoptHighWaterMark v | setoptFaultPolicy v |
    setoptRotationPeriod v => cases hb; exact decodeFrame_setopt _ v extra
  case setoptUnknownOption id v =>
    cases hb
    rw [decodeFrame_setopt, setoptCommand_unknown (by simpa [WellFormed] using hwf)]
  case attachKeep a =>
    cases hb
    have ha : attachCommand a = .attachKeep a := if_neg (by simpa [WellFormed] using hwf)
    exact congrArg FrameDecision.taken ha
  case nop | status | event | level | clrwin | attachFormat | recover | detach | openEpoch | commit | rotate |
    rollback | abort | resume | discard | thaw => cases hb; rfl
  all_goals cases hb

end Sys2Proof.Machine

/-! SUPPORT. The memory path: the class of a request and its treatment, the decision of a request at an IDLE port, the
end of the master path's requests, discards and restamps. -/

namespace Sys2Proof.Machine

/-! ## Classes and treatments (R4, R12) -/

theorem Window.contains_iff {w : Window} {a : Addr} :
    w.contains a = true ↔ w.valid = true ∧ w.base.toNat ≤ a.toNat ∧ a.toNat < w.limit.toNat := by
  simp [Window.contains, and_assoc]

theorem LogConfig.contains_iff {g : LogConfig} {a : Addr} :
    g.contains a = true ↔ g.slots ≠ 0 ∧ g.base.toNat ≤ a.toNat ∧ a.toNat < g.base.toNat + 0x80 + g.slots * 0x80 := by
  simp only [LogConfig.contains, Bool.and_eq_true, decide_eq_true_eq, bne_iff_ne, and_assoc]
  exact Iff.rfl

theorem State.tracked_iff {s : State} {a : Addr} :
    s.tracked a = true ↔
      ∃ w ∈ s.windows, w.valid = true ∧ w.mode = .track ∧ w.base.toNat ≤ a.toNat ∧ a.toNat < w.limit.toNat := by
  simp only [State.tracked, List.any_eq_true, Bool.and_eq_true, Window.contains_iff, decide_eq_true_eq]
  constructor
  · rintro ⟨w, hw, ⟨hv, hlo, hhi⟩, hm⟩
    exact ⟨w, hw, hv, hm, hlo, hhi⟩
  · rintro ⟨w, hw, hv, hm, hlo, hhi⟩
    exact ⟨w, hw, ⟨hv, hlo, hhi⟩, hm⟩

theorem trackTreatment_eq (mode : Mode) (op : OpState) :
    trackTreatment mode op =
      if mode = .offline then .take
      else if mode = .attaching then .stall
      else if mode = .online then (if op = .rolling then .stall else if op = .halted then .refuse else .take)
      else .refuse := by
  cases mode
  case online => cases op <;> rfl
  all_goals rfl

theorem treatment_log (mode : Mode) (op : OpState) (isWrite : Bool) :
    treatment mode op .log isWrite = if isWrite = true ∧ mode ≠ .offline then .refuse else .take := by
  cases isWrite
  · rfl
  · cases mode <;> rfl

/-- Settles O14: the class is tested in R4's order on the request's block, and the table read row by row. -/
theorem requestClassAndTreatment : Obligations.RequestClassAndTreatment := by
  refine ⟨?_, fun mode op isWrite => ⟨rfl, rfl, treatment_log mode op isWrite, trackTreatment_eq mode op⟩⟩
  intro s r bad block inLog inTrack
  have hbad : requestBad r = true ↔ bad := requestBad_iff r
  have hblock : (blockOf r.addr).toNat = block := blockOf_toNat r.addr
  have hlog : s.log.contains (blockOf r.addr) = true ↔ inLog := by rw [LogConfig.contains_iff, hblock]
  have htrack : s.tracked (blockOf r.addr) = true ↔ inTrack := by rw [State.tracked_iff, hblock]
  unfold State.classify
  refine ⟨fun h => ?_, fun h h1 => ?_, fun h h1 h2 => ?_, fun h h1 h2 => ?_⟩
  · rw [if_pos (hbad.mpr h)]
  · rw [if_neg (mt hbad.mp h), if_pos (hlog.mpr h1)]
  · rw [if_neg (mt hbad.mp h), if_neg (mt hlog.mp h1), if_pos (htrack.mpr h2)]
  · rw [if_neg (mt hbad.mp h), if_neg (mt hlog.mp h1), if_neg (mt htrack.mp h2)]

/-! ## The decision of a request at an IDLE port (R12, R13, R97) -/

/-- The request presented at an IDLE port is received and stands at the port until it is decided. -/
def State.receiving (s : State) (r : MemRequest) : State :=
  { s with up := { s.up with state := .stalled .situation r, received := s.up.received + 1 } }

section
variable {s : State} {r : MemRequest}

theorem exec_upstreamRequest (hrun : s.running) (hi : s.up.state = .idle) :
    exec (.upstreamRequest r) s = .next (finish s ((s.receiving r).decideRequest r)) := by
  refine claim_some hrun ?_
  simp only [State.receive, hi]
  rfl

theorem State.decideRequest_of_stall (h : treatment s.oc.mode s.oc.op (s.classify r) r.isWrite = .stall) :
    s.decideRequest r = { s with up := { s.up with state := .stalled .situation r } } := by
  simp only [State.decideRequest, h]

theorem State.decideRequest_of_read (h : treatment s.oc.mode s.oc.op (s.classify r) r.isWrite = .take)
    (hw : r.isWrite = false) :
    s.decideRequest r = { s with
      hq := { s.hq with read := some { addr := r.addr, isBlock := r.isBlock, cls := s.classify r } }
      up := { s.up with state := .readPending } } := by
  simp only [State.decideRequest, h]
  exact if_neg (by simp [hw])

theorem State.decideRequest_of_write (h : treatment s.oc.mode s.oc.op (s.classify r) r.isWrite = .take)
    (hw : r.isWrite = true) :
    s.decideRequest r =
      if s.canHold then s.hold r (s.classify r) else { s with up := { s.up with state := .stalled .queue r } } := by
  simp only [State.decideRequest, h]
  exact if_pos hw

theorem State.hold_posted {cls : RequestClass} (h : s.opts.writeMode = .posted) :
    s.hold r cls = ({ s with hq := { s.hq with
      entries := s.hq.entries ++ [s.newEntry r cls], nextOrder := s.hq.nextOrder + 1 } } : State).answer .okayWrite := by
  simp only [State.hold, h]

theorem State.hold_strict {cls : RequestClass} (h : s.opts.writeMode = .strict) :
    s.hold r cls = { s with
      hq := { s.hq with entries := s.hq.entries ++ [s.newEntry r cls], nextOrder := s.hq.nextOrder + 1 }
      up := { s.up with state := .writePending } } := by
  simp only [State.hold, h]

theorem State.canHold_posted (h : s.opts.writeMode = .posted) : s.canHold = decide (s.hq.entries.length < 8) := by
  simp only [State.canHold, h, Config.holdEntries]

theorem State.canHold_strict (h : s.opts.writeMode = .strict) : s.canHold = decide (s.hq.entries.length = 0) := by
  simp only [State.canHold, h]

end

/-- Settles O16, a clause for each branch of the decision. -/
theorem requestDecidedBySituation : Obligations.RequestDecidedBySituation := by
  intro s r hrun hi cls treated up stamp entry
  rw [exec_upstreamRequest hrun hi]
  have hcls : (s.receiving r).classify r = cls := rfl
  refine ⟨fun h => ?_, fun h => ?_, fun h hw => ?_, fun h hw hm hlen => ?_, fun h hw hm hnil => ?_, fun h hw hfull => ?_⟩
  · rw [show (s.receiving r).decideRequest r = (s.receiving r).answer .error by
      simp only [State.decideRequest, hcls]
      rw [show treatment (s.receiving r).oc.mode (s.receiving r).oc.op cls r.isWrite = .refuse from h]]
    rfl
  · rw [State.decideRequest_of_stall (s := s.receiving r) h]
    rfl
  · rw [State.decideRequest_of_read (s := s.receiving r) h hw]
    rfl
  · rw [State.decideRequest_of_write (s := s.receiving r) h hw,
      if_pos (by rw [State.canHold_posted (s := s.receiving r) hm]; exact decide_eq_true hlen), State.hold_posted (s := s.receiving r) hm]
    have he : (s.receiving r).newEntry r cls = entry true := by
      have ha : decide ((s.receiving r).opts.writeMode = .posted) = true := decide_eq_true hm
      simp only [State.newEntry, ha]
      rfl
    rw [hcls, he]
    rfl
  · rw [State.decideRequest_of_write (s := s.receiving r) h hw,
      if_pos (by rw [State.canHold_strict (s := s.receiving r) hm]; exact decide_eq_true (by rw [← List.length_nil, ← hnil]; rfl)), State.hold_strict (s := s.receiving r) hm]
    have he : (s.receiving r).newEntry r cls = entry false := by
      have ha : decide ((s.receiving r).opts.writeMode = .posted) = false :=
        decide_eq_false (fun hp => WriteMode.noConfusion (hm.symm.trans hp))
      simp only [State.newEntry, ha]
      rfl
    have hnil' : (s.receiving r).hq.entries = [] := hnil
    rw [hcls, he, hnil']
    rfl
  · have hno : (s.receiving r).canHold = false := by
      rcases hfull with ⟨hm, hlen⟩ | ⟨hm, hne⟩
      · rw [State.canHold_posted (s := s.receiving r) hm]
        exact decide_eq_false (Nat.not_lt.mpr hlen)
      · rw [State.canHold_strict (s := s.receiving r) hm]
        exact decide_eq_false (fun hz => hne (List.length_eq_zero_iff.mp hz))
    rw [State.decideRequest_of_write (s := s.receiving r) h hw, if_neg (by simp [hno])]
    rfl

/-! ## The end of the master path's requests (R3, R104, R105) -/

section
variable {s : State}

theorem State.readEnds_of {r : MemReply} {p : PendingRead} (hp : s.hq.read = some p)
    (h : s.portOutcome r = some (.masterRead, s.portFreed)) :
    s.readEnds r = some ({ s.portFreed with hq := { s.hq with read := none } }.answer (readResponse p.isBlock r)) := by
  simp only [State.readEnds, h, hp]

theorem State.writeEnds_of {n : Nat} {e : HoldEntry} (he : s.hq.entry n = some e)
    (h : s.portOutcome (.okay 0) = some (.masterWrite n, s.portFreed)) :
    s.writeEnds = some (if e.acknowledged then { s.portFreed with hq := s.hq.remove n }
      else ({ s.portFreed with hq := s.hq.remove n } : State).answer .okayWrite) := by
  simp only [State.writeEnds, h, he]

theorem State.writeFails_of {n : Nat} {e : HoldEntry} {f : MemFailure} (he : s.hq.entry n = some e)
    (h : s.portOutcome (.failed f) = some (.masterWrite n, s.portFreed)) :
    s.writeFails f = some (if e.acknowledged then
        ({ s.portFreed with hq := s.hq.remove n } : State).raiseWriteLost e (failureCondition f)
      else ({ s.portFreed with hq := s.hq.remove n } : State).answer .error) := by
  simp only [State.writeFails, h, he]

/-- A port that holds a request answers it. -/
theorem State.answer_of_busy {okay : Bool} {data : Option ReadData} (h : s.up.state ≠ .idle) :
    s.answer { okay := okay, data := data } = { s with up := s.up.answered okay data } := by
  unfold State.answer
  rw [UpstreamPort.answer_busy h]

end

/-- Settles O17: the request's end frees the port, its item leaves the hold queue, and the port that waits is
answered. -/
theorem masterTransfersEnd : Obligations.MasterTransfersEnd := by
  refine ⟨fun s p hrun hp hup => ⟨fun d hend => ?_, fun f hend => ?_⟩, ?_⟩
  · refine (claim_some hrun (State.readEnds_of hp (State.portOutcome_okay hend))).trans ?_
    have hbusy : ({ s.portFreed with hq := { s.hq with read := none } } : State).up.state ≠ .idle := by simp [hup]
    unfold readResponse
    rw [State.answer_of_busy hbusy]
  · refine (claim_some hrun (State.readEnds_of hp (State.portOutcome_failed hend))).trans ?_
    have hbusy : ({ s.portFreed with hq := { s.hq with read := none } } : State).up.state ≠ .idle := by simp [hup]
    unfold readResponse
    rw [State.answer_of_busy hbusy]
  · intro s n e hrun he hq
    have hbusy (h : s.up.state = .writePending) :
        ({ s.portFreed with hq := s.hq.remove n } : State).up.state ≠ .idle := by simp [h]
    refine ⟨fun hend ha => ?_, fun hend ha hup => ?_, fun f hend => ⟨fun ha => ?_, fun ha hup => ?_⟩⟩
    · refine (claim_some hrun (State.writeEnds_of he (State.portOutcome_okay hend))).trans ?_
      rw [if_pos ha]
      rfl
    · refine (claim_some hrun (State.writeEnds_of he (State.portOutcome_okay hend))).trans ?_
      rw [if_neg (by simp [ha]), Response.okayWrite, State.answer_of_busy (hbusy hup)]
      rfl
    · refine (claim_some hrun (State.writeFails_of he (State.portOutcome_failed hend))).trans ?_
      rw [if_pos ha, failureCondition_eq]
      rfl
    · refine (claim_some hrun (State.writeFails_of he (State.portOutcome_failed hend))).trans ?_
      rw [if_neg (by simp [ha]), Response.error, State.answer_of_busy (hbusy hup)]
      rfl

/-! ## Discards and restamps (R99, R107) -/

theorem HoldEntry.kept_iff (e : HoldEntry) (p : HoldEntry → Bool) : (!(e.held && p e)) = (e.issued || !p e) := by
  unfold HoldEntry.held
  cases e.issued <;> rfl

theorem State.discardHeld_answers {s : State} {p : HoldEntry → Bool} :
    ((s.hq.entries.filter fun e => e.held && p e).any fun e => !e.acknowledged) = true ↔
      ∃ e ∈ s.hq.entries, e.issued = false ∧ p e = true ∧ e.acknowledged = false := by
  simp [List.any_eq_true, HoldEntry.held, and_assoc]

/-- Settles O18: what a discard keeps, when it answers, and its frame; a restamp is the map over the entries it is. -/
theorem discardAndRestamp : Obligations.DiscardAndRestamp := by
  refine ⟨fun s p => ⟨?_, fun h hup => ?_, fun h => ?_, s.discardHeld_onlyChanges p, ?_⟩, fun s old new => rfl⟩
  · rw [State.discardHeld_hq]
    simp only [HoldEntry.kept_iff]
  · rw [State.discardHeld_up, if_pos (State.discardHeld_answers.mpr h), Response.error, UpstreamPort.answer_busy hup]
  · rw [State.discardHeld_up, if_neg]
    intro hany
    obtain ⟨e, he, hi, hpe, ha⟩ := State.discardHeld_answers.mp hany
    exact Bool.false_ne_true (ha.symm.trans (h e he hi hpe))
  · exact List.countP_eq_length_filter.symm

end Sys2Proof.Machine

/-! SUPPORT. The FAULT line: an assertion decided by policy and situation, what it does when acted on, the latch, and
THAW. -/

namespace Sys2Proof.Machine

/-! ## An assertion taken (R164 to R166) -/

/-- The assertion is recorded as the line's last level. -/
def State.seesFault (s : State) : State := { s with oc := { s.oc with faultLine := true } }

section
variable {s : State}

theorem State.assertFault_of_seen (h : s.oc.faultLine = true) : s.assertFault = none := if_pos h

theorem State.assertFault_of_ignored (h : s.oc.faultLine = false) (hp : s.opts.faultPolicy = .ignore) :
    s.assertFault = some s.seesFault := by
  simp only [State.assertFault, h, hp]
  rfl

theorem State.assertFault_of_taken (h : s.oc.faultLine = false) (hp : s.opts.faultPolicy ≠ .ignore) :
    s.assertFault = some s.seesFault.takeAssertion := by
  unfold State.assertFault
  rw [if_neg (by simp [h])]
  cases hq : s.opts.faultPolicy
  case ignore => exact absurd hq hp
  all_goals rfl

theorem State.takeAssertion_of_rollback (h : s.oc.op = .rolling ∨ s.oc.op = .halted) :
    s.takeAssertion = s.dropFault 2 := if_pos h

theorem State.takeAssertion_elsewhere (h : s.oc.op ≠ .rolling) (h' : s.oc.op ≠ .halted) (hm : s.oc.mode ≠ .online) :
    s.takeAssertion = s.dropFault 1 := by
  unfold State.takeAssertion
  rw [if_neg (not_or.mpr ⟨h, h'⟩), if_pos hm]

theorem State.takeAssertion_of_online (h : s.oc.op ≠ .rolling) (h' : s.oc.op ≠ .halted) (hm : s.oc.mode = .online) :
    s.takeAssertion =
      if s.oc.op = .idle then s.actOnFault
      else if s.oc.latch then s.dropFault 3 else { s with oc := { s.oc with latch := true } } := by
  unfold State.takeAssertion
  rw [if_neg (not_or.mpr ⟨h, h'⟩), if_neg (not_not.mpr hm)]

theorem State.takeAssertion_of_idle (hm : s.oc.mode = .online) (ho : s.oc.op = .idle) :
    s.takeAssertion = s.actOnFault := by
  rw [State.takeAssertion_of_online (by simp [ho]) (by simp [ho]) hm, if_pos ho]

end

/-- Settles O19: the line's level first, then the policy, then the situation in R166's order. -/
theorem faultAssertionDecided : Obligations.FaultAssertionDecided := by
  intro s hrun seen dropped
  refine ⟨fun h => ⟨?_, ?_⟩, fun h => ?_, fun h hp => ?_, fun h hp => ⟨fun ho => ?_, fun h1 h2 hm => ?_,
    fun hm h1 h2 ho => ⟨fun hl => ?_, fun hl => ?_⟩⟩⟩
  · exact claim_some hrun (if_pos h)
  · exact claim_none (State.assertFault_of_seen h)
  · exact claim_none (if_neg (by simp [h]))
  · exact claim_some hrun (State.assertFault_of_ignored h hp)
  · refine claim_some hrun ((State.assertFault_of_taken h hp).trans ?_)
    rw [State.takeAssertion_of_rollback (s := s.seesFault) ho]
    rfl
  · refine claim_some hrun ((State.assertFault_of_taken h hp).trans ?_)
    rw [State.takeAssertion_elsewhere (s := s.seesFault) h1 h2 hm]
    rfl
  · refine claim_some hrun ((State.assertFault_of_taken h hp).trans ?_)
    rw [State.takeAssertion_of_online (s := s.seesFault) h1 h2 hm, if_neg (show ¬s.seesFault.oc.op = .idle from ho),
      if_neg (show ¬s.seesFault.oc.latch = true by simp [State.seesFault, hl])]
    rfl
  · refine claim_some hrun ((State.assertFault_of_taken h hp).trans ?_)
    rw [State.takeAssertion_of_online (s := s.seesFault) h1 h2 hm, if_neg (show ¬s.seesFault.oc.op = .idle from ho),
      if_pos (show s.seesFault.oc.latch = true from hl)]
    rfl

/-! ## An assertion acted on (R167, R169) -/

/-- A discard reads the hold queue and the port alone, so the other parts may be changed before it or after it. -/
theorem State.discardHeld_with (s : State) (oc : Controller) (re : RestoreEngine) (eq : EventQueue)
    (p : HoldEntry → Bool) :
    ({ s with oc := oc, re := re, eq := eq } : State).discardHeld p =
      { s.discardHeld p with oc := oc, re := re, eq := eq } := by
  unfold State.discardHeld
  dsimp only
  split <;> rfl

/-- The levels a discard's entry to FENCED reports are those it found. -/
theorem State.enterFence_brokenFault (s : State) :
    s.enterFence .brokenFault .none = { s.discardHeld (fun e => decide (e.cls = .track)) with
      oc := { s.oc with mode := .fenced, fence := .brokenFault, timer := none, rotationPending := false }
      eq := s.eq.push { kind := .fenced, level := BitVec.ofNat 8 s.oc.stack.length, condition := .none,
                        serial := s.oc.innermost, argument := 2 } } := by
  have hd := State.discardHeld_with s
    { s.oc with mode := .fenced, fence := .brokenFault, timer := none, rotationPending := false } s.re s.eq (·.isTrack)
  unfold State.enterFence State.fenceDiscard State.stopTimer
  dsimp only
  rw [hd]
  unfold State.raise
  dsimp only
  rw [State.discardHeld_re]
  rfl

theorem State.acceptRollback_eq (s : State) (j : Nat) (origin : RollbackOrigin) :
    s.acceptRollback j origin = { s.discardHeld (s.oc.inRange j) with
      oc := { s.oc with op := .rolling }
      re := { s.re with
        stage := .settling, purpose := .rollback, origin := origin, target := j, targetSerial := s.oc.serialAt j
        fromFreeze := s.oc.frozen, restored := 0, abortRequested := false, haltCondition := .none, rangeBreak := .none
        handling := .header } } := by
  unfold State.acceptRollback
  rw [show s.eq = (s.discardHeld (s.oc.inRange j)).eq from (State.discardHeld_eq s _).symm]
  exact State.discardHeld_with s _ _ _ _

theorem Controller.frozen_of_online {oc : Controller} (h : oc.mode = .online) : oc.frozen = false := by
  simp [Controller.frozen, h]

/-- Under INNER or ALL an assertion over levels starts a rollback, or fences. -/
theorem State.actOnFault_of_levels {s : State} {j : Nat}
    (hp : s.opts.faultPolicy = .inner ∧ j = s.oc.stack.length ∨ s.opts.faultPolicy = .all ∧ j = 1)
    (hs : s.oc.stack ≠ []) : s.actOnFault = s.faultRollback j := by
  unfold State.actOnFault
  rcases hp with ⟨hp, rfl⟩ | ⟨hp, rfl⟩ <;> rw [hp] <;> exact if_neg (by simpa using hs)

theorem State.actOnFault_of_empty {s : State} (hp : s.opts.faultPolicy = .inner ∨ s.opts.faultPolicy = .all)
    (hs : s.oc.stack = []) : s.actOnFault = s.dropFault 4 := by
  unfold State.actOnFault
  rcases hp with hp | hp <;> rw [hp] <;> exact if_pos (by simp [hs])

/-- Over a broken range the assertion fences the part (R167, R169). -/
theorem State.faultRollback_of_broken {s : State} {j : Nat} (hb : s.oc.brokenFrom j = true) :
    s.faultRollback j = { s.discardHeld (fun e => decide (e.cls = .track)) with
      oc := { s.oc with mode := .fenced, fence := .brokenFault, timer := none, rotationPending := false }
      eq := (s.eq.push { kind := .faultTaken, level := BitVec.ofNat 8 j, condition := .none, serial := s.oc.serialAt j,
                         argument := 0 }).push
        { kind := .fenced, level := BitVec.ofNat 8 s.oc.stack.length, condition := .none, serial := s.oc.innermost,
          argument := 2 } } := by
  have hroll : s.faultRollback j = (s.raiseFaultTaken j (s.oc.serialAt j) 0).enterFence .brokenFault .none := if_pos hb
  have hd := State.discardHeld_with s s.oc s.re (s.raiseFaultTaken j (s.oc.serialAt j) 0).eq
    (fun e => decide (e.cls = .track))
  have hd' : (s.raiseFaultTaken j (s.oc.serialAt j) 0).discardHeld (fun e => decide (e.cls = .track)) = _ := hd
  rw [hroll, State.enterFence_brokenFault, hd']
  simp only [State.raiseFaultTaken_eq, State.raiseFaultTaken_oc]
  rw [show s.re = (s.discardHeld fun e => decide (e.cls = .track)).re from (State.discardHeld_re s _).symm]
  rfl

/-- Elsewhere it starts a rollback with origin FAULT (R117, R167). -/
theorem State.faultRollback_of_sound {s : State} {j : Nat} (hb : s.oc.brokenFrom j = false) :
    s.faultRollback j = { s.discardHeld (s.oc.inRange j) with
      oc := { s.oc with op := .rolling }
      re := { s.re with
        stage := .settling, purpose := .rollback, origin := .fault, target := j, targetSerial := s.oc.serialAt j
        fromFreeze := s.oc.frozen, restored := 0, abortRequested := false, haltCondition := .none, rangeBreak := .none
        handling := .header }
      eq := s.eq.push { kind := .faultTaken, level := BitVec.ofNat 8 j, condition := .none, serial := s.oc.serialAt j,
                        argument := BitVec.ofNat 32 (s.discardCount (s.oc.inRange j)) } } := by
  have hroll : s.faultRollback j =
      (s.acceptRollback j .fault).raiseFaultTaken j (s.oc.serialAt j) (s.rollbackDrops j) :=
    if_neg (by simp [hb])
  rw [hroll, State.acceptRollback_eq]
  unfold State.raiseFaultTaken State.raise
  rw [show s.eq = (s.discardHeld (s.oc.inRange j)).eq from (State.discardHeld_eq s _).symm]
  rfl

/-- Settles O20: each policy's branch of the assertion acted on. -/
theorem faultActedOnAtIdle : Obligations.FaultActedOnAtIdle := by
  intro s hrun hline hm ho seen taken fenced
  have hact (hp : s.opts.faultPolicy ≠ .ignore) :
      exec .faultAssertion s = .next (finish s s.seesFault.actOnFault) := by
    refine claim_some hrun ((State.assertFault_of_taken hline hp).trans ?_)
    rw [State.takeAssertion_of_idle (s := s.seesFault) hm ho]
  refine ⟨fun hp => ?_, fun hp hs => ?_, fun j hp hs => ?_⟩
  · have hfreeze : s.seesFault.actOnFault =
        (s.seesFault.raiseFaultTaken s.oc.depth s.oc.innermost 0).enterFence .frozen .none := by
      unfold State.actOnFault
      rw [show s.seesFault.opts.faultPolicy = .freeze from hp]
      rfl
    rw [hact (by simp [hp]), hfreeze]
    rfl
  · rw [hact (by rcases hp with hp | hp <;> simp [hp]), State.actOnFault_of_empty (s := s.seesFault) hp hs]
    have hd : s.seesFault.oc.depth = 0 := List.length_eq_zero_iff.mpr hs
    have hi : s.seesFault.oc.innermost = 0 := by simp [Controller.innermost, hd, Controller.serialAt, Controller.level]
    unfold State.dropFault
    rw [hd, hi]
    rfl
  · rw [hact (by rcases hp with ⟨hp, -⟩ | ⟨hp, -⟩ <;> simp [hp]),
      State.actOnFault_of_levels (s := s.seesFault) hp hs]
    refine ⟨fun hb => ?_, fun hb => ?_⟩
    · rw [State.faultRollback_of_broken (s := s.seesFault) hb]
      have hd := State.discardHeld_with s seen s.re s.eq (fun e => decide (e.cls = .track))
      have hd' : s.seesFault.discardHeld (fun e => decide (e.cls = .track)) = _ := hd
      rw [hd', show s.re = (s.discardHeld fun e => decide (e.cls = .track)).re from (State.discardHeld_re s _).symm]
      rfl
    · intro inRange
      have hfrozen : s.seesFault.oc.frozen = false := Controller.frozen_of_online hm
      rw [State.faultRollback_of_sound (s := s.seesFault) hb, hfrozen]
      have hd := State.discardHeld_with s seen s.re s.eq inRange
      have hd' : s.seesFault.discardHeld (s.seesFault.oc.inRange j) = _ := hd
      rw [hd']
      rfl

/-! ## The latch and THAW (R168, R172) -/

/-- What an assertion does when acted on leaves the line's level as it is. -/
theorem State.actOnFault_faultLine (s : State) (b : Bool) :
    ({ s with oc := { s.oc with faultLine := b } } : State).actOnFault =
      { s.actOnFault with oc := { s.actOnFault.oc with faultLine := b } } := by
  have hroll (j : Nat) : ({ s with oc := { s.oc with faultLine := b } } : State).faultRollback j =
      { s.faultRollback j with oc := { (s.faultRollback j).oc with faultLine := b } } := by
    have hd (p : HoldEntry → Bool) := State.discardHeld_with s { s.oc with faultLine := b } s.re s.eq p
    cases hb : s.oc.brokenFrom j
    · rw [State.faultRollback_of_sound (s := { s with oc := { s.oc with faultLine := b } }) hb,
        State.faultRollback_of_sound hb, hd]
      rfl
    · rw [State.faultRollback_of_broken (s := { s with oc := { s.oc with faultLine := b } }) hb,
        State.faultRollback_of_broken hb, hd]
      rw [show s.re = (s.discardHeld fun e => decide (e.cls = .track)).re from (State.discardHeld_re s _).symm]
      rfl
  unfold State.actOnFault
  dsimp only
  cases s.opts.faultPolicy
  case ignore => rfl
  case freeze => rfl
  case inner =>
    by_cases hs : s.oc.stack.isEmpty = true
    · simp only [hs, if_true]; rfl
    · simp only [hs]; exact hroll _
  case all =>
    by_cases hs : s.oc.stack.isEmpty = true
    · simp only [hs, if_true]; rfl
    · simp only [hs]; exact hroll _

theorem Controller.frozen_iff {oc : Controller} : oc.frozen = true ↔ oc.mode = .fenced ∧ oc.fence = .frozen := by
  simp [Controller.frozen]

/-- Settles O21: the latch is taken at IDLE alone, in ONLINE as an assertion taken then; THAW's two checks, and its
effect. -/
theorem latchTakenFreezeThawed : Obligations.LatchTakenFreezeThawed := by
  refine ⟨fun s hrun => ⟨fun h => ?_, fun hl ho hm => ?_, fun hl ho hm => ?_⟩, fun s hlink => ⟨fun h => ?_,
    fun hm hf ho => ?_, fun hm hf ho => ?_⟩⟩
  · refine claim_none (if_neg ?_)
    rintro ⟨hl, ho⟩
    rcases h with h | h
    · exact Bool.false_ne_true (h.symm.trans hl)
    · exact h ho
  · refine claim_some hrun ?_
    unfold State.takeLatch State.dropLatch
    rw [if_pos ⟨hl, ho⟩, if_neg hm, if_pos hl]
    rfl
  · refine ⟨({ s with oc := { s.oc with latch := false } } : State).actOnFault, claim_some hrun ?_, ?_⟩
    · unfold State.takeLatch
      rw [if_pos ⟨hl, ho⟩, if_pos hm]
    · rw [← State.actOnFault_faultLine]
      refine (claim_some (s := { s with oc := { s.oc with latch := false, faultLine := false } }) hrun ?_).trans
        (congrArg _ (finish_congr rfl rfl))
      by_cases hp : s.opts.faultPolicy = .ignore
      · refine (State.assertFault_of_ignored (s := { s with oc := { s.oc with latch := false, faultLine := false } }) rfl hp).trans ?_
        unfold State.actOnFault State.seesFault
        simp only [hp]
      · refine (State.assertFault_of_taken (s := { s with oc := { s.oc with latch := false, faultLine := false } }) rfl hp).trans ?_
        exact congrArg some (State.takeAssertion_of_idle hm ho)
  · refine command_refuse hlink (if_pos ?_)
    rw [Bool.not_eq_true', ← Bool.not_eq_true, Controller.frozen_iff]
    exact h
  · have hr : s.thaw = .refuse .busy := by
      unfold State.thaw
      rw [if_neg (by simp [Controller.frozen_iff.mpr ⟨hm, hf⟩]), if_pos ho]
    exact command_refuse hlink hr
  · have hd : s.thaw = .done .ok [] { s with oc := { s.oc with
        mode := .online, fence := .none, timer := if s.oc.stack = [] then s.oc.timer else s.opts.fullPeriod } } := by
      unfold State.thaw
      rw [if_neg (by simp [Controller.frozen_iff.mpr ⟨hm, hf⟩]), if_neg (not_not.mpr ho)]
      cases hs : s.oc.stack <;> rfl
    exact command_showing hlink hd rfl

end Sys2Proof.Machine

/-! SUPPORT. OPEN, COMMIT and ROTATE: their checks and their acceptance, the rotation timer, and the waits of an OPEN, a
COMMIT and a ROTATE. -/

namespace Sys2Proof.Machine

/-! ## The checks the three commands share (R47, R118, R129) -/

section
variable {s : State} {l : List (Bool × ResultCode)}

theorem State.epochChecks_of_rollback (h : s.oc.op = .rolling ∨ s.oc.op = .halted) :
    firstFailure (s.epochChecks ++ l) = some .busy :=
  firstFailure_cons_of_fails (decide_eq_false (by rcases h with h | h <;> simp [h]))

theorem State.epochChecks_elsewhere (h : s.oc.op ≠ .rolling) (h' : s.oc.op ≠ .halted) (hm : s.oc.mode ≠ .online) :
    firstFailure (s.epochChecks ++ l) = some .state :=
  (firstFailure_cons_of_passes (decide_eq_true ⟨h, h'⟩)).trans (firstFailure_cons_of_fails (decide_eq_false hm))

theorem State.epochChecks_at_work (hm : s.oc.mode = .online) (ho : s.oc.op ≠ .idle) :
    firstFailure (s.epochChecks ++ l) = some .busy := by
  by_cases h : s.oc.op ≠ .rolling ∧ s.oc.op ≠ .halted
  · exact ((firstFailure_cons_of_passes (decide_eq_true h)).trans
      (firstFailure_cons_of_passes (decide_eq_true hm))).trans (firstFailure_cons_of_fails (decide_eq_false ho))
  · exact firstFailure_cons_of_fails (decide_eq_false h)

theorem State.epochChecks_of_idle (hm : s.oc.mode = .online) (ho : s.oc.op = .idle) :
    firstFailure (s.epochChecks ++ l) = firstFailure l :=
  ((firstFailure_cons_of_passes (decide_eq_true (by simp [ho]))).trans
    (firstFailure_cons_of_passes (decide_eq_true hm))).trans (firstFailure_cons_of_passes (decide_eq_true ho))

end

/-- OPEN, COMMIT and ROTATE are link commands whose owners make the shared checks first. -/
theorem exec_epoch_refused {s : State} {c : Instr} {code : ResultCode} (hl : s.linked)
    (hc : c ∈ [.openEpoch, .commit, .rotate]) (h : ∀ l, firstFailure (s.epochChecks ++ l) = some code) :
    exec c s = .next { s with link := s.link.showing code [] } := by
  simp only [List.mem_cons, List.not_mem_nil, or_false] at hc
  rcases hc with rfl | rfl | rfl
  · refine command_refuse hl ?_
    simp only [State.openEpoch, State.openChecks, h]
  · refine command_refuse hl ?_
    simp only [State.commit, State.commitChecks, h]
  · refine command_refuse hl ?_
    simp only [State.rotate, State.rotateChecks, h]

section
variable {s : State} (hl : s.linked) (hm : s.oc.mode = .online) (ho : s.oc.op = .idle)
include hl hm ho

theorem exec_openEpoch_refused {code : ResultCode}
    (h : firstFailure [(decide (s.oc.depth < Config.maxDepth), .depth), (decide (1 ≤ s.freeSlots), .space),
      (decide (s.lc.nextSerial ≠ 0), .space)] = some code) :
    exec .openEpoch s = .next { s with link := s.link.showing code [] } := by
  refine command_refuse hl ?_
  simp only [State.openEpoch, State.openChecks, State.epochChecks_of_idle hm ho, h]

theorem exec_rotate_refused {code : ResultCode}
    (h : firstFailure [(decide (s.oc.depth = 1), .depth), (decide (s.lc.nextSerial ≠ 0), .space)] = some code) :
    exec .rotate s = .next { s with link := s.link.showing code [] } := by
  refine command_refuse hl ?_
  simp only [State.rotate, State.rotateChecks, State.epochChecks_of_idle hm ho, h]

theorem exec_commit_refused (h : s.oc.stack = []) :
    exec .commit s = .next { s with link := s.link.showing .depth [] } := by
  refine command_refuse hl ?_
  have hd : s.oc.depth = 0 := List.length_eq_zero_iff.mpr h
  simp only [State.commit, State.commitChecks, State.epochChecks_of_idle hm ho, hd]
  rfl

/-- An OPEN that passes its checks takes the next serial and pushes a level of it. -/
theorem exec_openEpoch_accepted (hd : s.oc.stack.length < 6) (hf : s.lc.live < s.log.slots)
    (hn : s.lc.nextSerial ≠ 0) :
    exec .openEpoch s = .next { finish s
        (({ s with lc := { s.lc with nextSerial := s.lc.nextSerial + 1 } } : State).pushLevel s.lc.nextSerial)
      with link := s.link.showing .accepted (bigEndian s.lc.nextSerial) } := by
  have hpass : firstFailure s.openChecks = none := by
    refine (State.epochChecks_of_idle hm ho).trans (firstFailure_eq_none.mpr ?_)
    have hfree : 1 ≤ s.freeSlots := by unfold State.freeSlots; omega
    simpa [Controller.depth, hd, hfree] using hn
  refine command_showing hl (t := ({ s with lc := _ } : State).pushLevel _) ?_ rfl
  simp only [State.openEpoch, hpass, LogState.takeSerial_some hn]

/-- A ROTATE that passes its checks takes the successor's serial. -/
theorem exec_rotate_accepted (hd : s.oc.stack.length = 1) (hn : s.lc.nextSerial ≠ 0) :
    exec .rotate s = .next { finish s
        (({ s with lc := { s.lc with nextSerial := s.lc.nextSerial + 1 } } : State).startRotation s.lc.nextSerial .command)
      with link := s.link.showing .accepted (bigEndian s.lc.nextSerial) } := by
  have hpass : firstFailure s.rotateChecks = none := by
    refine (State.epochChecks_of_idle hm ho).trans (firstFailure_eq_none.mpr ?_)
    simpa [Controller.depth, hd] using hn
  refine command_showing hl (t := ({ s with lc := _ } : State).startRotation _ _) ?_ rfl
  simp only [State.rotate, hpass, LogState.takeSerial_some hn]

end

/-- A COMMIT that passes its checks merges an inner level, or starts the commit wait. -/
theorem State.commit_of_last {s : State} {top : Level} (hm : s.oc.mode = .online) (ho : s.oc.op = .idle)
    (h : s.oc.stack.getLast? = some top) :
    s.commit =
      if 2 ≤ s.oc.depth then .done .ok [] (s.commitInner s.oc.depth top)
      else .done .accepted [] { s with oc := { s.oc with stamp := 0, op := .committing, phase := .commitWait } } := by
  have hd : 1 ≤ s.oc.depth := by
    unfold Controller.depth
    rcases List.eq_nil_or_concat s.oc.stack with hs | ⟨b, x, hs⟩ <;> rw [hs] at h ⊢ <;> simp at h ⊢
  have hpass : firstFailure s.commitChecks = none :=
    (State.epochChecks_of_idle hm ho).trans (firstFailure_eq_none.mpr (by simp [hd]))
  simp only [State.commit, hpass, h]

/-- Settles O23: the shared checks, each command's own in order, and each acceptance. -/
theorem epochCommandsChecked : Obligations.EpochCommandsChecked := by
  refine ⟨?_, fun s hl hm ho hd hf hn => exec_openEpoch_accepted hl hm ho hd hf hn, fun s l hl hm ho hs => ⟨?_, fun hn => ?_⟩⟩
  · intro s hl refused
    refine ⟨fun c hc => ⟨fun h => ?_, fun h h' hm => ?_, fun hm ho => ?_⟩,
      fun hm ho => ⟨fun hd => ?_, fun hd hspace => ?_, fun hs => ?_, fun hd => ?_, fun hd hn => ?_⟩⟩
    · exact exec_epoch_refused hl hc fun l => State.epochChecks_of_rollback h
    · exact exec_epoch_refused hl hc fun l => State.epochChecks_elsewhere h h' hm
    · exact exec_epoch_refused hl hc fun l => State.epochChecks_at_work hm ho
    · exact exec_openEpoch_refused hl hm ho
        (firstFailure_cons_of_fails (decide_eq_false (Nat.not_lt.mpr hd)))
    · refine exec_openEpoch_refused hl hm ho
        ((firstFailure_cons_of_passes (decide_eq_true hd)).trans
          (firstFailure_const (by simp) fun hall => ?_))
      have hfree : 1 ≤ s.freeSlots := by simpa using hall _ (List.mem_cons_self ..)
      have hserial : s.lc.nextSerial ≠ 0 := by simpa using hall _ (List.mem_cons_of_mem _ (List.mem_cons_self ..))
      unfold State.freeSlots at hfree
      rcases hspace with hspace | hspace
      · omega
      · exact hserial hspace
    · exact exec_commit_refused hl hm ho hs
    · exact exec_rotate_refused hl hm ho (firstFailure_cons_of_fails (decide_eq_false hd))
    · exact exec_rotate_refused hl hm ho
        ((firstFailure_cons_of_passes (decide_eq_true hd)).trans
          (firstFailure_cons_of_fails (decide_eq_false (not_not.mpr hn))))
  · have hc := State.commit_of_last hm ho (top := l) (by rw [hs]; rfl)
    have hd : s.oc.depth = 1 := congrArg List.length hs
    rw [if_neg (by rw [hd]; decide)] at hc
    exact command_showing hl hc rfl
  · exact exec_rotate_accepted hl hm ho (congrArg List.length hs) hn

/-! ## An inner COMMIT (R52, R68, R87, R99) -/

/-- The merge at the stack `base ++ [below, top]`, part by part. -/
theorem State.commitInner_eq {s : State} {base : List Level} {below top : Level}
    (hs : s.oc.stack = base ++ [below, top]) :
    s.commitInner (base.length + 2) top = { s with
      oc := { s.oc with
        stack := base ++ [{ below with captures := addCaptures below.captures top.captures }], stamp := below.serial }
      cf := s.cf.map fun e => if e.level = base.length + 2 then { e with level := base.length + 1 } else e
      ce := { s.ce with
        contexts := s.ce.contexts.map (Option.map fun c =>
          if c.level = base.length + 2 then { c with level := base.length + 1, serial := below.serial } else c) }
      lc := { s.lc with
        reservations := s.lc.reservations.map fun e =>
          if e.purpose = .capture ∧ e.level = base.length + 2 then
            { e with level := base.length + 1, serial := below.serial } else e }
      hq := { s.hq with entries := s.hq.entries.map fun e => e.restamp top.serial below.serial }
      eq := s.eq.push { kind := .committed, level := BitVec.ofNat 8 (base.length + 2), condition := .none,
                        serial := top.serial, argument := top.captures } } := by
  have hbelow : s.oc.serialAt (base.length + 1) = below.serial := by
    simp [Controller.serialAt, Controller.level, hs]
  have hstack : s.oc.stack.modify base.length (fun l => { l with captures := saturatingAdd l.captures top.captures }) =
      (base ++ [{ below with captures := addCaptures below.captures top.captures }]) ++ [top] := by
    rw [hs, List.modify_at_length]
    simp [saturatingAdd, addCaptures]
  have hpop : (s.setLevel (base.length + 1)
        fun l => { l with captures := saturatingAdd l.captures top.captures }).popInnermost.oc =
      { s.oc with
        stack := base ++ [{ below with captures := addCaptures below.captures top.captures }]
        stamp := below.serial } := by
    rw [State.popInnermost_oc, State.setLevel_oc]
    simp only [Nat.add_one_ne_zero, if_false, Nat.add_sub_cancel, hstack, List.dropLast_concat]
    rw [Controller.innermost_append rfl]
  unfold State.commitInner
  simp only [show base.length + 2 - 1 = base.length + 1 from rfl, hbelow]
  refine State.ext rfl rfl rfl rfl rfl rfl rfl rfl ?_ rfl rfl rfl rfl rfl rfl
  exact hpop

/-- Settles O22: the checks pass, the depth is 2 or more, and the merge is `commitInner_eq`. -/
theorem innerCommitMergesLevel : Obligations.InnerCommitMergesLevel := by
  intro s base below top hl hm ho hs k
  have hd : s.oc.depth = base.length + 2 := by simp [Controller.depth, hs]
  have hc := State.commit_of_last hm ho (top := top) (by rw [hs]; simp)
  rw [if_pos (by omega), hd, State.commitInner_eq hs] at hc
  exact command_showing hl hc rfl

/-! ## The rotation timer (R58 to R60) -/

/-- Without a serial the timer's rotation is refused by OPEN_FAILED and the timer stops; else it starts (R43, R55). -/
theorem State.timerRotation_eq (s : State) :
    s.timerRotation =
      if s.lc.nextSerial = 0 then
        { s with
          oc := { s.oc with timer := none }
          eq := s.eq.push { kind := .openFailed, level := 1, condition := .noSpace, serial := 0, argument := 2 } }
      else { s with
        lc := { s.lc with nextSerial := s.lc.nextSerial + 1 }
        oc := { s.oc with
          successor := some { serial := s.lc.nextSerial, origin := .timer, marker := none }
          stamp := s.lc.nextSerial, op := .rotating, phase := .rotateWait } } := by
  unfold State.timerRotation
  by_cases hn : s.lc.nextSerial = 0
  · rw [LogState.takeSerial_none hn, if_pos hn]
    rfl
  · rw [LogState.takeSerial_some hn, if_neg hn]
    rfl

theorem State.timerExpires_of_zero {s : State} (h : s.oc.timer = some 0) :
    s.timerExpires =
      if s.oc.rotationPending then some s.startTimer
      else if s.oc.mayRotate then some s.startTimer.timerRotation
      else if s.oc.mode = .online then
        some { s.startTimer with oc := { s.startTimer.oc with rotationPending := true } }
      else some s.startTimer :=
  if_pos h

/-- Settles O24: the expiry's four cases, and the two of a pending rotation. -/
theorem timerRotations : Obligations.TimerRotations := by
  intro s hrun started unserved reloaded may
  have hmay : s.oc.mayRotate = true ↔ may := Controller.mayRotate_iff
  refine ⟨fun h hp => ?_, fun h hp hm => ?_, fun h hp hon hm => ?_, fun h => ?_, fun hp hm => ?_, fun h => ?_⟩
  · exact claim_some hrun ((State.timerExpires_of_zero h).trans (if_pos hp))
  · refine (claim_some hrun ((State.timerExpires_of_zero h).trans
      ((if_neg (by simp [hp])).trans (if_pos (hmay.mpr hm))))).trans ?_
    rw [State.timerRotation_eq]
    rfl
  · exact claim_some hrun ((State.timerExpires_of_zero h).trans
      ((if_neg (by simp [hp])).trans ((if_neg (mt hmay.mp hm)).trans (if_pos hon))))
  · exact claim_none (if_neg h)
  · intro cleared
    refine (claim_some hrun (if_pos ⟨hp, hmay.mpr hm⟩)).trans ?_
    rw [State.timerRotation_eq]
  · refine claim_none (if_neg ?_)
    rintro ⟨hp, hm⟩
    rcases h with h | h
    · exact Bool.false_ne_true (h.symm.trans hp)
    · exact h (hmay.mp hm)

/-! ## The ordering wait of an OPEN (R49 to R51) -/

theorem State.pausedForSlot_iff {s : State} :
    s.pausedForSlot = true ↔ s.ce.episode = true ∧ s.opts.logFull = .stall := by
  simp [State.pausedForSlot]

theorem State.orderingClear_iff {s : State} {serial : Word32} :
    s.orderingClear serial = true ↔
      s.hq.entries.all (fun e => e.issued || !e.toConsider || decide (serial.toNat ≤ e.stamp.toNat)) = true := by
  have h (e : HoldEntry) : (!(e.held && e.toConsider && decide (e.stamp.toNat < serial.toNat))) =
      (e.issued || !e.toConsider || decide (serial.toNat ≤ e.stamp.toNat)) := by
    have hlt : (!decide (e.stamp.toNat < serial.toNat)) = decide (serial.toNat ≤ e.stamp.toNat) := by
      rw [← decide_not]
      exact decide_eq_decide.mpr Nat.not_lt
    simp only [HoldEntry.held, Bool.not_and, Bool.not_not, hlt]
  simp only [State.orderingClear, h]

/-- The marker's slot granted: the reservation, the level's start slot and the header queued (R27, R50). -/
theorem State.orderingEnds_granted {s : State} (hp : s.oc.phase = .openWait)
    (ho : s.orderingClear s.oc.innermost = true ∨ s.pausedForSlot = true) (hg : s.slotAnswer = .granted) :
    s.orderingEnds = some
      (({ (s.reserve .marker s.oc.depth s.oc.innermost).setLevel s.oc.depth fun l => { l with start := some s.lc.head } with
          oc := { ((s.reserve .marker s.oc.depth s.oc.innermost).setLevel s.oc.depth
            fun l => { l with start := some s.lc.head }).oc with phase := .openMarker } } : State).queueWrite
        (.openHeader s.lc.head)) := by
  unfold State.orderingEnds
  rw [if_pos ⟨hp, ho⟩, hg]

theorem State.orderingEnds_noSlot {s : State} (hp : s.oc.phase = .openWait)
    (ho : s.orderingClear s.oc.innermost = true ∨ s.pausedForSlot = true) (hg : s.slotAnswer = .noSlot) :
    s.orderingEnds = some (s.failOpen .noSpace).endOperation := by
  unfold State.orderingEnds
  rw [if_pos ⟨hp, ho⟩, hg]

/-- A failed OPEN pops its level, restamps its writes with the level below and reports; at depth 0 the timer stops
(R44, R50, R51, R58). -/
theorem State.failOpen_eq {s : State} {rest : List Level} {l : Level} (c : Condition) (hs : s.oc.stack = rest ++ [l]) :
    s.failOpen c = { s with
      oc := { s.oc with
        stack := rest, stamp := (rest.getLast?.map Level.serial).getD 0
        timer := if rest = [] then none else s.oc.timer
        rotationPending := if rest = [] then false else s.oc.rotationPending }
      hq := { s.hq with
        entries := s.hq.entries.map fun e => e.restamp l.serial ((rest.getLast?.map Level.serial).getD 0) }
      eq := s.eq.push { kind := .openFailed, level := BitVec.ofNat 8 (rest.length + 1), condition := c,
                        serial := l.serial, argument := 0 } } := by
  have hd : s.oc.depth = rest.length + 1 := by simp [Controller.depth, hs]
  have hpop : s.popInnermost =
      { s with oc := { s.oc with stack := rest, stamp := (rest.getLast?.map Level.serial).getD 0 } } := by
    refine State.ext rfl rfl rfl rfl rfl rfl rfl rfl ?_ rfl rfl rfl rfl rfl rfl
    rw [State.popInnermost_oc, hs, List.dropLast_concat, Controller.innermost_getLast]
  unfold State.failOpen
  simp only [hd, Controller.innermost_append hs, hpop]
  unfold State.stopTimerIfEmpty
  cases rest <;> rfl

/-- Settles O25: the wait's condition, then the slot request's two answers of a log that is not dead. -/
theorem orderingWaitEnds : Obligations.OrderingWaitEnds := by
  intro s hrun isOver
  have hover : (s.orderingClear s.oc.innermost = true ∨ s.pausedForSlot = true) ↔ isOver := by
    rw [State.orderingClear_iff, State.pausedForSlot_iff]
  refine ⟨fun h => ?_, fun hp ho hdead hlive => ?_, fun hp ho hdead hlive rest l hs => ?_⟩
  · refine claim_none (if_neg ?_)
    rintro ⟨hp, ho⟩
    rcases h with h | h
    · exact h hp
    · exact h (hover.mp ho)
  · intro high
    refine (claim_some hrun (State.orderingEnds_granted hp (hover.mpr ho) (State.slotAnswer_granted hdead hlive))).trans ?_
    rw [State.reserve_eq]
    have hstack : (if s.oc.depth = 0 then s.oc.stack
          else s.oc.stack.modify (s.oc.depth - 1) fun l => { l with start := some s.lc.head }) =
        s.oc.stack.modify (s.oc.stack.length - 1) fun l => { l with start := some s.lc.head } := by
      by_cases hz : s.oc.depth = 0
      · have hnil : s.oc.stack = [] := List.length_eq_zero_iff.mp hz
        rw [if_pos hz, hnil]
        rfl
      · rw [if_neg hz]
        rfl
    unfold State.setLevel
    simp only [hstack]
    rfl
  · intro below
    refine (claim_some hrun (State.orderingEnds_noSlot hp (hover.mpr ho) (State.slotAnswer_noSlot hdead hlive))).trans ?_
    rw [State.failOpen_eq .noSpace hs]
    rfl

/-! ## The commit wait of COMMIT and ROTATE (R53 to R57) -/

theorem CaptureEngine.allFree_iff {ce : CaptureEngine} : ce.allFree = true ↔ ∀ c ∈ ce.contexts, c = none := by
  simp [CaptureEngine.allFree, List.all_eq_true]

theorem State.commitWaitOver_iff {s : State} :
    s.commitWaitOver = true ↔
      (s.ce.episode = true ∧ s.opts.logFull = .stall
        ∨ ∀ e ∈ s.hq.entries, e.stamp = s.oc.serialAt 1 → e.capture ≠ .notConsidered ∧ e.capture ≠ .waiting)
      ∧ ∀ c ∈ s.ce.contexts, c = none := by
  have hentry (e : HoldEntry) :
      (!(decide (e.stamp = s.oc.serialAt 1) && (decide (e.capture = .notConsidered) || decide (e.capture = .waiting)))) =
        true ↔ (e.stamp = s.oc.serialAt 1 → e.capture ≠ .notConsidered ∧ e.capture ≠ .waiting) := by
    simp [imp_iff_not_or]
  unfold State.commitWaitOver
  rw [Bool.and_eq_true, Bool.or_eq_true, State.pausedForSlot_iff, CaptureEngine.allFree_iff, List.all_eq_true]
  simp only [hentry]

theorem State.rotateWaitEnds_of {s : State} {x : Successor} (hp : s.oc.phase = .rotateWait)
    (ho : s.commitWaitOver = true) (hx : s.oc.successor = some x) :
    s.rotateWaitEnds =
      if 1 ≤ s.freeSlots then
        let u := (s.setBar.reserve .marker 1 x.serial).setSuccessorMarker s.lc.head
        some (({ u with oc := { u.oc with phase := .rotateMarker } } : State).queueWrite (.openHeader s.lc.head))
      else
        some (({ s.setBar with oc := { s.setBar.oc with phase := .rotateFirstAnchor } } : State).queueWrite
          (.anchor .rotateFirst)) := by
  unfold State.rotateWaitEnds
  rw [if_pos ⟨hp, ho⟩, hx]

/-- Settles O26: both waits share their condition; each end is its branch. -/
theorem commitAndRotateWaitsEnd : Obligations.CommitAndRotateWaitsEnd := by
  intro s hrun isOver barred
  have hover : s.commitWaitOver = true ↔ isOver := State.commitWaitOver_iff
  refine ⟨fun h => ?_, fun h => ?_, fun hp ho => ?_, fun x hp ho hx hfull => ?_, fun x hp ho hx hfree => ?_⟩
  · refine claim_none (if_neg ?_)
    rintro ⟨hp, ho⟩
    exact h.elim (· hp) (· (hover.mp ho))
  · refine claim_none (if_neg ?_)
    rintro ⟨hp, ho⟩
    exact h.elim (· hp) (· (hover.mp ho))
  · exact claim_some hrun (if_pos ⟨hp, hover.mpr ho⟩)
  · have hnone : ¬1 ≤ s.freeSlots := by unfold State.freeSlots; omega
    exact claim_some hrun ((State.rotateWaitEnds_of hp (hover.mpr ho) hx).trans (if_neg hnone))
  · intro high
    have hsome : 1 ≤ s.freeSlots := by unfold State.freeSlots; omega
    refine (claim_some hrun ((State.rotateWaitEnds_of hp (hover.mpr ho) hx).trans (if_pos hsome))).trans ?_
    rw [State.reserve_eq]
    unfold State.setSuccessorMarker
    simp only [State.setBar_oc, hx]
    rfl

end Sys2Proof.Machine

/-! SUPPORT. Consideration: the write it stands at, its level and its bars, what the lookup settles, the capture it
starts, and what it does without a context or a slot; the filter's insertion. -/

namespace Sys2Proof.Machine

/-! ## The consideration point and its bars (R45, R76, R77) -/

section
variable {s : State}

theorem State.considers_iff :
    s.considers = true ↔ s.lc.dead = false
      ∧ (s.oc.mode = .online ∨ s.oc.mode = .fenced ∧ (s.oc.fence = .frozen ∨ s.oc.fence = .brokenFault)) := by
  unfold State.considers
  cases s.oc.mode <;> simp

theorem HoldEntry.toConsider_iff {e : HoldEntry} :
    e.toConsider = true ↔ e.cls = .track ∧ e.stamp ≠ 0 ∧ (e.capture = .notConsidered ∨ e.capture = .waiting) := by
  simp [HoldEntry.toConsider, HoldEntry.isTrack, and_assoc]

theorem State.considerationPoint_iff {e : HoldEntry} :
    s.considerationPoint = some e ↔ ∃ older younger, s.hq.entries = older ++ e :: younger ∧ e.toConsider = true
      ∧ ∀ x ∈ older, x.toConsider = false := by
  unfold State.considerationPoint
  rw [List.find?_eq_some_iff_append]
  constructor
  · rintro ⟨he, older, younger, hs, hno⟩
    exact ⟨older, younger, hs, he, fun x hx => by simpa using hno x hx⟩
  · rintro ⟨older, younger, hs, he, hno⟩
    exact ⟨he, older, younger, hs, fun x hx => by simp [hno x hx]⟩

theorem Controller.considerable_iff {oc : Controller} {stamp : Word32} :
    oc.considerable stamp = true ↔ ∃ l ∈ oc.stack, l.serial = stamp ∧ l.durable = true := by
  simp [Controller.considerable]

theorem State.mayConsider_iff {e : HoldEntry} :
    s.mayConsider e = true ↔ (∃ l ∈ s.oc.stack, l.serial = e.stamp ∧ l.durable = true) ∧ s.oc.bar ≠ some e.stamp := by
  unfold State.mayConsider
  rw [Bool.and_eq_true, Controller.considerable_iff, decide_eq_true_eq]

/-- Without a point, or where nothing is considered, CONSIDERATION does nothing. -/
theorem exec_consideration_none (h : s.considers = false ∨ s.considerationPoint = none) :
    exec .consideration s = .next s := by
  refine claim_none ?_
  unfold State.consider
  by_cases hc : s.considers = true
  · rw [if_pos hc, h.resolve_left (by simp [hc])]
  · exact if_neg hc

theorem exec_consideration_barred {e : HoldEntry} (hp : s.considerationPoint = some e) (h : s.mayConsider e = false) :
    exec .consideration s = .next s := by
  refine claim_none ?_
  unfold State.consider
  by_cases hc : s.considers = true
  · rw [if_pos hc, hp]
    exact if_neg (by simp [h])
  · exact if_neg hc

/-- The write at the point, considered at its level. -/
theorem exec_consideration {e : HoldEntry} {k : Nat} (hrun : s.running) (hc : s.considers = true)
    (hp : s.considerationPoint = some e) (hm : s.mayConsider e = true) (hk : s.oc.levelOf e.stamp = some k) :
    exec .consideration s = .next (finish s (s.considerAt e k)) := by
  refine claim_some hrun ?_
  unfold State.consider
  rw [if_pos hc, hp]
  refine (if_pos hm).trans ?_
  rw [hk]
  rfl

end

theorem Controller.levelOf_zero (oc : Controller) : oc.levelOf 0 = none := if_pos rfl

/-- A serial of the stack belongs to the level it stands at, counted from 1. -/
theorem Controller.levelOf_stack {oc : Controller} {i : Nat} {l : Level} (hz : l.serial ≠ 0)
    (hl : oc.stack[i]? = some l) (hfirst : ∀ j < i, ∀ x, oc.stack[j]? = some x → x.serial ≠ l.serial) :
    oc.levelOf l.serial = some (i + 1) := by
  have hi : i < oc.stack.length := (List.getElem?_eq_some_iff.mp hl).1
  have hfind : oc.stack.findIdx? (fun x => decide (x.serial = l.serial)) = some i := by
    rw [List.findIdx?_eq_some_iff_getElem]
    refine ⟨hi, ?_, fun j hj => ?_⟩
    · rw [(List.getElem?_eq_some_iff.mp hl).2]
      exact decide_eq_true rfl
    · simpa using hfirst j hj _ (List.getElem?_eq_getElem (Nat.lt_trans hj hi))
  unfold Controller.levelOf
  rw [if_neg hz, hfind]

/-- The successor's serial, which no level carries yet, belongs to level 1. -/
theorem Controller.levelOf_successor {oc : Controller} {x : Successor} (hx : oc.successor = some x) (hz : x.serial ≠ 0)
    (hno : ∀ l ∈ oc.stack, l.serial ≠ x.serial) : oc.levelOf x.serial = some 1 := by
  have hfind : oc.stack.findIdx? (fun l => decide (l.serial = x.serial)) = none := by
    rw [List.findIdx?_eq_none_iff]
    exact fun l hl => decide_eq_false (hno l hl)
  unfold Controller.levelOf
  rw [if_neg hz, hfind, hx]
  exact if_pos rfl

/-! ## The busy context on a block at a level (R78, R79) -/

/-- The busy contexts on the block at the level. -/
def CaptureEngine.onBlock (ce : CaptureEngine) (block : Addr) (k : Nat) : List Context :=
  (ce.contexts.filterMap id).filter fun c => decide (c.block = block) && decide (c.level = k)

theorem CaptureEngine.mem_onBlock {ce : CaptureEngine} {block : Addr} {k : Nat} {c : Context} :
    c ∈ ce.onBlock block k ↔ some c ∈ ce.contexts ∧ c.block = block ∧ c.level = k := by
  simp [CaptureEngine.onBlock]

theorem CaptureEngine.busyOn_eq (ce : CaptureEngine) (block : Addr) (k : Nat) :
    ce.busyOn block k =
      match (ce.onBlock block k).find? (·.failure.isNone) with
      | some c => some c
      | none => (ce.onBlock block k).head? := rfl

theorem CaptureEngine.busyOn_eq_none {ce : CaptureEngine} {block : Addr} {k : Nat} :
    ce.busyOn block k = none ↔ ce.onBlock block k = [] := by
  rw [CaptureEngine.busyOn_eq]
  cases h : (ce.onBlock block k).find? (·.failure.isNone) with
  | some c =>
    have hc := List.mem_of_find?_eq_some h
    simp only [reduceCtorEq, false_iff]
    exact List.ne_nil_of_mem hc
  | none => exact List.head?_eq_none_iff

/-- The context named stands on the block at the level, and has failed only where every such context has. -/
theorem CaptureEngine.busyOn_eq_some {ce : CaptureEngine} {block : Addr} {k : Nat} {c : Context}
    (h : ce.busyOn block k = some c) :
    c ∈ ce.onBlock block k ∧ (c.failure ≠ none → ∀ x ∈ ce.onBlock block k, x.failure ≠ none) := by
  rw [CaptureEngine.busyOn_eq] at h
  cases hf : (ce.onBlock block k).find? (·.failure.isNone) with
  | some d =>
    rw [hf] at h
    obtain rfl : d = c := Option.some.inj h
    refine ⟨List.mem_of_find?_eq_some hf, fun hn => absurd ?_ hn⟩
    have hd : d.failure.isNone = true := List.find?_some (p := fun c : Context => c.failure.isNone) hf
    exact Option.isNone_iff_eq_none.mp hd
  | none =>
    rw [hf] at h
    refine ⟨List.mem_of_mem_head? h, fun _ x hx hnone => ?_⟩
    exact absurd (by simp [hnone]) (List.find?_eq_none.mp hf x hx)

/-- Settles O27, a lemma for each clause. -/
theorem considerationPointAndBars : Obligations.ConsiderationPointAndBars := by
  intro s
  refine ⟨State.considers_iff, fun e => HoldEntry.toConsider_iff, fun e => State.considerationPoint_iff,
    fun e => State.mayConsider_iff, exec_consideration_none, fun e hp h => ?_,
    ⟨Controller.levelOf_zero _, fun i l hz hl hfirst => Controller.levelOf_stack hz hl hfirst,
      fun x hx hz hno => Controller.levelOf_successor hx hz hno⟩, fun block k => ⟨?_, fun c hc => ?_⟩⟩
  · refine exec_consideration_barred hp ?_
    rw [← Bool.not_eq_true, State.mayConsider_iff]
    rintro ⟨⟨l, hl, hserial, hd⟩, hbar⟩
    rcases h with h | h
    · exact Bool.false_ne_true ((h l hl hserial).symm.trans hd)
    · exact hbar h
  · rw [CaptureEngine.busyOn_eq_none, List.eq_nil_iff_forall_not_mem]
    refine forall_congr' fun c => ?_
    rw [CaptureEngine.mem_onBlock, not_and]
  · obtain ⟨hmem, hfail⟩ := CaptureEngine.busyOn_eq_some hc
    obtain ⟨hctx, hb, hl⟩ := CaptureEngine.mem_onBlock.mp hmem
    exact ⟨hctx, hb, hl, fun hn x hx hxb hxl => hfail hn x (CaptureEngine.mem_onBlock.mpr ⟨hx, hxb, hxl⟩)⟩

/-! ## What the lookup settles (R64, R78, R79) -/

theorem filterHit_iff {cf : List FilterEntry} {block : Addr} {k : Nat} :
    filterHit cf block k = true ↔ ∃ x ∈ cf, x.block = block ∧ x.level = k := by
  simp [filterHit]

section
variable {s : State} {e : HoldEntry} {k : Nat}

theorem State.considerAt_hit (h : filterHit s.cf e.block k = true) :
    s.considerAt e k =
      match s.ce.busyOn e.block k with
      | some c => s.setCapture e.order (.depends c.slot)
      | none => s.setCapture e.order .free :=
  if_pos h

theorem State.considerAt_miss (h : filterHit s.cf e.block k = false) :
    s.considerAt e k =
      match s.ce.busyOn e.block k with
      | some c =>
        match c.failure, s.opts.writeMode with
        | none, _ => (s.insert e.block k).setCapture e.order (.depends c.slot)
        | some _, .posted => (s.insert e.block k).setCapture e.order (.depends c.slot)
        | some _, .strict => s.setCapture e.order .waiting
      | none => s.needCapture e k :=
  if_neg (by simp [h])

theorem State.considerAt_need (h : ∀ x ∈ s.cf, ¬(x.block = e.block ∧ x.level = k))
    (hb : s.ce.busyOn e.block k = none) : s.considerAt e k = s.needCapture e k := by
  have hmiss : filterHit s.cf e.block k = false := by
    rw [← Bool.not_eq_true, filterHit_iff]
    rintro ⟨x, hx, hxe⟩
    exact h x hx hxe
  rw [State.considerAt_miss hmiss, hb]

end

/-- Settles O28: a hit or a busy context settles the write in one of four ways. -/
theorem considerationSettledByLookup : Obligations.ConsiderationSettledByLookup := by
  intro s e k hrun hc hp hm hk hit settled
  have hhit : filterHit s.cf e.block k = true ↔ hit := filterHit_iff
  have hmiss (h : ¬hit) : filterHit s.cf e.block k = false := by rw [← Bool.not_eq_true, hhit]; exact h
  rw [exec_consideration hrun hc hp hm hk]
  refine ⟨fun c h hb => ?_, fun h hb => ?_, fun c h hb ho => ?_, fun c h hb hf hw => ?_⟩
  · rw [State.considerAt_hit (hhit.mpr h), hb]
    rfl
  · rw [State.considerAt_hit (hhit.mpr h), hb]
    rfl
  · rw [State.considerAt_miss (hmiss h), hb]
    have hsettled : (s.insert e.block k).setCapture e.order (.depends c.slot) =
        settled (.depends c.slot) (filterInsert s.cf e.block k) := rfl
    rcases ho with ho | ho
    · simp only [ho, hsettled]
    · cases hcf : c.failure <;> simp only [hcf, ho, hsettled]
  · rw [State.considerAt_miss (hmiss h), hb]
    obtain ⟨f, hcf⟩ := Option.ne_none_iff_exists'.mp hf
    simp only [hcf, hw]
    rfl

/-! ## A capture that starts (R80, R81, R83) -/

section
variable {s : State} {e : HoldEntry} {k : Nat}

theorem CaptureEngine.freeContext_eq {ce : CaptureEngine} {i : Nat} (h : ce.contexts[i]? = some none)
    (hbusy : ∀ j < i, ∃ c, ce.contexts[j]? = some (some c)) : ce.freeContext = some i := by
  have hi : i < ce.contexts.length := (List.getElem?_eq_some_iff.mp h).1
  unfold CaptureEngine.freeContext
  rw [List.findIdx?_eq_some_iff_getElem]
  refine ⟨hi, ?_, fun j hj => ?_⟩
  · rw [(List.getElem?_eq_some_iff.mp h).2]
    rfl
  · obtain ⟨c, hc⟩ := hbusy j hj
    rw [(List.getElem?_eq_some_iff.mp hc).2]
    simp

theorem CaptureEngine.freeContext_eq_none {ce : CaptureEngine} (h : ∀ c ∈ ce.contexts, c ≠ none) :
    ce.freeContext = none := by
  unfold CaptureEngine.freeContext
  rw [List.findIdx?_eq_none_iff]
  intro c hc
  cases c with
  | none => exact absurd rfl (h none hc)
  | some c => rfl

theorem CaptureEngine.freeContext_isSome {ce : CaptureEngine} (h : none ∈ ce.contexts) :
    ∃ i, ce.freeContext = some i := by
  cases hf : ce.freeContext with
  | some i => exact ⟨i, rfl⟩
  | none =>
    unfold CaptureEngine.freeContext at hf
    rw [List.findIdx?_eq_none_iff] at hf
    exact absurd (hf none h) (by simp)

theorem State.needCapture_episode (h : s.ce.episode = true) : s.needCapture e k = s.noSlot e k := if_pos h

theorem State.needCapture_busy (h : s.ce.episode = false) (hf : s.ce.freeContext = none) :
    s.needCapture e k = s.setCapture e.order .waiting := by
  unfold State.needCapture
  rw [if_neg (by simp [h]), hf]

/-- What the log's answer to the slot request makes of a write that context `i` would take. -/
def State.askSlot (s : State) (e : HoldEntry) (k i : Nat) : State :=
  match s.slotAnswer with
  | .dead => s.setCapture e.order .waiting
  | .noSlot => s.noSlot e k
  | .granted => s.startCapture e k i

theorem State.askSlot_noSlot (i : Nat) (h : s.slotAnswer = .noSlot) : s.askSlot e k i = s.noSlot e k := by
  simp only [State.askSlot, h]

theorem State.askSlot_granted (i : Nat) (h : s.slotAnswer = .granted) : s.askSlot e k i = s.startCapture e k i := by
  simp only [State.askSlot, h]

theorem State.needCapture_free {i : Nat} (h : s.ce.episode = false) (hf : s.ce.freeContext = some i) :
    s.needCapture e k = if s.oc.detaching then s else s.askSlot e k i := by
  unfold State.needCapture
  rw [if_neg (by simp [h]), hf]
  rfl

end

/-- The order wait is over where no older write to the block is HELD. -/
theorem Context.release_orderWait_eq {c : Context} {entries : List HoldEntry} {state : ContextState}
    (hc : c.state = .orderWait)
    (hw : (∃ x ∈ entries, x.issued = false ∧ x.block = c.block ∧ x.order < c.trigger) → state = .orderWait)
    (hr : (¬∃ x ∈ entries, x.issued = false ∧ x.block = c.block ∧ x.order < c.trigger) → state = .reading) :
    c.release entries = { c with state := state } := by
  have hcond : (entries.all fun x => !(x.held && decide (x.block = c.block) && decide (x.order < c.trigger))) = true ↔
      ¬∃ x ∈ entries, x.issued = false ∧ x.block = c.block ∧ x.order < c.trigger := by
    simp [HoldEntry.held, List.all_eq_true, or_iff_not_imp_left]
  unfold Context.release
  by_cases h : ∃ x ∈ entries, x.issued = false ∧ x.block = c.block ∧ x.order < c.trigger
  · rw [if_neg (fun hboth => hcond.mp hboth.2 h), hw h, ← hc]
  · rw [if_pos ⟨hc, hcond.mpr h⟩, hr h]

/-- Settles O29: the lookup misses, a context and a slot are free, and `startCapture` is the granted request, the
insertion and the context with its order wait decided. -/
theorem considerationStartsCapture : Obligations.ConsiderationStartsCapture := by
  intro s e k i hrun hc hp hm hk hmiss hb hd hep hi hbusy hlive high waits
  have hdead : s.lc.dead = false := (State.considers_iff.mp hc).1
  have hstart : s.considerAt e k = s.startCapture e k i := by
    rw [State.considerAt_need hmiss hb, State.needCapture_free hep (CaptureEngine.freeContext_eq hi hbusy),
      if_neg (by simp [hd]), State.askSlot_granted i (State.slotAnswer_granted hdead hlive)]
  refine ⟨s.startCapture e k i, ?_, ?_, ?_, fun state hw hr => ?_⟩
  · rw [exec_consideration hrun hc hp hm hk, hstart]
  · unfold State.startCapture
    rw [State.reserve_eq]
    rfl
  · unfold State.startCapture
    rw [State.reserve_eq]
    exact hep
  · unfold State.startCapture
    rw [State.reserve_eq]
    exact congrArg (fun c => s.ce.contexts.set i (some c)) (Context.release_orderWait_eq rfl hw hr)

/-! ## Without a context or a slot (R80, R91, R92) -/

section
variable {s : State} {e : HoldEntry} {k : Nat}

theorem State.noSlot_stall (h : s.opts.logFull = .stall) : s.noSlot e k = s.stallCapture e k := by
  simp only [State.noSlot, h]

theorem State.noSlot_break (h : s.opts.logFull = .break_) : s.noSlot e k = s.skipCapture e k := by
  simp only [State.noSlot, h]

theorem State.beginEpisode_again (h : s.ce.episode = true) : s.beginEpisode e k = s := if_pos h

theorem State.beginEpisode_first (h : s.ce.episode = false) :
    s.beginEpisode e k = { s with
      ce := { s.ce with episode := true }
      eq := s.eq.push { kind := .logFull, level := BitVec.ofNat 8 k, condition := .noSpace, serial := e.stamp,
                        argument := e.block } } :=
  if_neg (by simp [h])

/-- Under BREAK the block is entered, every level breaks and the write is FREE; the first of an episode reports. -/
theorem State.skipCapture_eq (s : State) (e : HoldEntry) (k : Nat) :
    let u := ({ s with cf := filterInsert s.cf e.block k } : State).breakAll .noSpace e.block
    s.skipCapture e k = { u with
      hq := { s.hq with
        entries := s.hq.entries.map fun x => if x.order = e.order then { x with capture := .free } else x }
      ce := { s.ce with episode := true }
      eq := if s.ce.episode then u.eq else
        u.eq.push { kind := .logFull, level := BitVec.ofNat 8 k, condition := .noSpace, serial := e.stamp,
                    argument := e.block } } := by
  intro u
  have hframe := State.breakAll_onlyChanges (s.insert e.block k) .noSpace e.block
  have hq : u.hq = s.hq := hframe .hq (by decide)
  have hce : u.ce = s.ce := hframe .ce (by decide)
  have hskip : s.skipCapture e k = (u.setCapture e.order .free).beginEpisode e k := rfl
  have hep : (u.setCapture e.order .free).ce.episode = s.ce.episode := congrArg CaptureEngine.episode hce
  rw [hskip]
  unfold State.setCapture at hep ⊢
  rw [hq] at hep ⊢
  cases h : s.ce.episode
  · rw [State.beginEpisode_first (hep.trans h), ← hce]
    rfl
  · rw [State.beginEpisode_again (hep.trans h)]
    refine State.ext rfl rfl rfl rfl rfl rfl rfl ?_ rfl rfl rfl rfl rfl rfl rfl
    show u.ce = { s.ce with episode := true }
    rw [hce, ← h]

end

/-- Settles O30, a clause for each case of a write that needs a capture and starts none. -/
theorem considerationWithoutSlot : Obligations.ConsiderationWithoutSlot := by
  intro s e k hrun hc hp hm hk hmiss hb entries full
  have hdead : s.lc.dead = false := (State.considers_iff.mp hc).1
  rw [exec_consideration hrun hc hp hm hk, State.considerAt_need hmiss hb]
  refine ⟨fun hep hbusy => ?_, fun hpol hep hd hfree hlive => ?_, fun hpol hep => ?_, fun hep hd hfree => ?_,
    fun hpol h => ?_⟩
  · rw [State.needCapture_busy hep (CaptureEngine.freeContext_eq_none hbusy)]
    rfl
  · obtain ⟨i, hi⟩ := CaptureEngine.freeContext_isSome hfree
    rw [State.needCapture_free hep hi, if_neg (by simp [hd]),
      State.askSlot_noSlot i (State.slotAnswer_noSlot hdead hlive), State.noSlot_stall hpol, State.stallCapture, State.beginEpisode_first (s := s.setCapture e.order .waiting) hep]
    rfl
  · rw [State.needCapture_episode hep, State.noSlot_stall hpol, State.stallCapture, State.beginEpisode_again (s := s.setCapture e.order .waiting) hep]
    rfl
  · obtain ⟨i, hi⟩ := CaptureEngine.freeContext_isSome hfree
    rw [State.needCapture_free hep hi, if_pos hd]
  · intro u
    have hskip : s.needCapture e k = s.skipCapture e k := by
      cases hep : s.ce.episode
      · obtain ⟨hd, hfree, hlive⟩ := h.resolve_left (by simp [hep])
        obtain ⟨i, hi⟩ := CaptureEngine.freeContext_isSome hfree
        rw [State.needCapture_free hep hi, if_neg (by simp [hd]),
          State.askSlot_noSlot i (State.slotAnswer_noSlot hdead hlive)]
        exact State.noSlot_break hpol
      · rw [State.needCapture_episode hep, State.noSlot_break hpol]
    rw [hskip, State.skipCapture_eq]

end Sys2Proof.Machine

/-! SUPPORT. The filter's insertion, the completions of a capture's requests, the durable mark's way over a run of
reservations, and what a failed capture and a break request do. -/

namespace Sys2Proof.Machine

/-! ## The filter's insertion (R62, R65, R66) -/

/-- The entry given up: of the lowest level the oldest. -/
theorem victim_eq {v : FilterEntry} (post : List FilterEntry) (hpost : ∀ e ∈ post, v.level ≤ e.level) :
    ∀ pre : List FilterEntry, (∀ e ∈ pre, v.level < e.level) → victim (pre ++ v :: post) = some v
  | [], _ => by
    have hmem : ∀ (l : List FilterEntry) (x : FilterEntry), victim l = some x → x ∈ l := by
      intro l
      induction l with
      | nil => intro x h; cases h
      | cons e rest ih =>
        intro x h
        unfold victim at h
        split at h
        · obtain rfl : e = x := Option.some.inj h
          exact List.mem_cons_self ..
        · rename_i y hy
          split at h <;> obtain rfl := Option.some.inj h
          · exact List.mem_cons_of_mem _ (ih _ hy)
          · exact List.mem_cons_self ..
    show victim (v :: post) = some v
    unfold victim
    split
    · rfl
    · rename_i x hx
      exact if_neg (Nat.not_lt.mpr (hpost x (hmem post x hx)))
  | e :: pre, hpre => by
    have ih := victim_eq post hpost pre fun x hx => hpre x (List.mem_cons_of_mem _ hx)
    show victim (e :: (pre ++ v :: post)) = some v
    unfold victim
    rw [ih]
    exact if_pos (hpre e (List.mem_cons_self ..))

/-- The entries of the filter but those of one block. -/
theorem filter_block_ne {pre post : List FilterEntry} {x : FilterEntry} {block : Addr} (hx : x.block = block)
    (hother : ∀ e ∈ pre ++ post, e.block ≠ block) :
    (pre ++ x :: post).filter (fun e => decide (e.block ≠ block)) = pre ++ post := by
  have hkeep : (pre ++ post).filter (fun e => decide (e.block ≠ block)) = pre ++ post :=
    List.filter_eq_self.mpr fun e he => decide_eq_true (hother e he)
  rw [List.filter_append] at hkeep ⊢
  rw [List.filter_cons_of_neg (by simp [hx])]
  exact hkeep

theorem find_block_none {cf : List FilterEntry} {block : Addr} (h : ∀ e ∈ cf, e.block ≠ block) :
    cf.find? (fun e => decide (e.block = block)) = none :=
  List.find?_eq_none.mpr fun e he => by simpa using h e he

theorem setEntries_mem {cf : List FilterEntry} {set : Nat} {e : FilterEntry} :
    e ∈ setEntries cf set ↔ e ∈ cf ∧ filterSet e.block = set := by
  simp [setEntries]

theorem freeWay_eq_some {cf : List FilterEntry} {set w : Nat} (hw : w < 4)
    (hfree : ∀ e ∈ cf, filterSet e.block = set → e.way ≠ w)
    (htaken : ∀ v < w, ∃ e ∈ cf, filterSet e.block = set ∧ e.way = v) : freeWay cf set = some w := by
  unfold freeWay
  rw [List.find?_range_eq_some]
  refine ⟨?_, List.mem_range.mpr hw, fun v hv => ?_⟩
  · rw [List.all_eq_true]
    intro e he
    obtain ⟨hmem, hset⟩ := setEntries_mem.mp he
    exact decide_eq_true (hfree e hmem hset)
  · obtain ⟨e, hmem, hset, hway⟩ := htaken v hv
    rw [Bool.not_eq_true', ← Bool.not_eq_true, List.all_eq_true]
    exact fun hall => absurd hway (of_decide_eq_true (hall e (setEntries_mem.mpr ⟨hmem, hset⟩)))

theorem freeWay_eq_none {cf : List FilterEntry} {set : Nat}
    (htaken : ∀ w < 4, ∃ e ∈ cf, filterSet e.block = set ∧ e.way = w) : freeWay cf set = none := by
  unfold freeWay
  rw [List.find?_eq_none]
  intro w hw hall
  obtain ⟨e, hmem, hset, hway⟩ := htaken w (List.mem_range.mp hw)
  rw [List.all_eq_true] at hall
  exact absurd hway (of_decide_eq_true (hall e (setEntries_mem.mpr ⟨hmem, hset⟩)))

/-- Settles O31: the block's own entry, a free way, or the victim's. -/
theorem filterInsertionPlacesBlock : Obligations.FilterInsertionPlacesBlock := by
  intro cf block k inSet
  have hset (e : FilterEntry) : inSet e ↔ filterSet e.block = filterSet block := Iff.rfl
  refine ⟨fun pre old post hcf hold hother => ?_, fun w hw hno hfree htaken => ?_,
    fun pre v post hcf hno htaken hv hpre hpost hother => ?_⟩
  · have hfind : cf.find? (fun e => decide (e.block = block)) = some old := by
      rw [hcf, List.find?_append,
        find_block_none (fun e he => hother e (List.mem_append_left _ he))]
      simp [hold]
    have hkeep := filter_block_ne (x := old) hold hother
    rw [← hcf] at hkeep
    unfold filterInsert
    rw [hfind]
    dsimp only
    rw [hkeep]
  · unfold filterInsert
    rw [find_block_none hno, freeWay_eq_some (set := filterSet block) hw hfree htaken]
  · have hkeep := filter_block_ne (x := v) rfl hother
    have hvictim : victim (setEntries cf (filterSet block)) = some v := by
      unfold setEntries
      rw [hcf, List.filter_append, List.filter_cons_of_pos (by simpa using (hset v).mp hv)]
      refine victim_eq _ (fun e he => ?_) _ (fun e he => ?_) <;> rw [List.mem_filter, decide_eq_true_eq] at he
      · exact hpost e he.1 he.2
      · exact hpre e he.1 he.2
    rw [← hcf] at hkeep
    unfold filterInsert
    rw [find_block_none hno, freeWay_eq_none (set := filterSet block) htaken, hvictim]
    dsimp only
    rw [hkeep]

/-! ## The durable mark (R29, R42, R86) -/

/-- What a marker's report does leaves the reservations. -/
theorem State.markerDurable_reservations (s : State) (e : Reservation) :
    (s.markerDurable e).lc.reservations = s.lc.reservations := by
  unfold State.markerDurable
  split
  case h_1 =>
    unfold State.openMarkerDurable
    by_cases h : e.level = 1 <;> simp [h]
  all_goals rfl

theorem State.failOpen_reservations (s : State) (c : Condition) :
    (s.failOpen c).lc.reservations = s.lc.reservations :=
  congrArg LogState.reservations (s.failOpen_frame c .lc (by decide))

theorem State.markerFailed_reservations (s : State) (c : Condition) :
    (s.markerFailed c).lc.reservations = s.lc.reservations := by
  unfold State.markerFailed
  split
  case h_1 =>
    unfold State.openMarkerFailed
    dsimp only
    split <;> exact s.failOpen_reservations c
  case h_2 =>
    unfold State.abandonRotation
    split <;> rfl
  all_goals rfl

theorem State.passEntry_reservations (s : State) (e : Reservation) :
    (s.passEntry e).lc.reservations = s.lc.reservations := by
  unfold State.passEntry
  dsimp only
  split
  · rfl
  · rfl
  · exact State.markerDurable_reservations _ _
  · exact State.markerFailed_reservations _ _

section
variable {s : State} {r : Reservation} {rest : List Reservation}

/-- The mark stands before an entry that is not WRITTEN, and at head. -/
theorem State.advanceMark_stays
    (h : ∀ r rest, s.lc.reservations = r :: rest → r.state ≠ .written ∨ s.lc.live ≤ s.lc.durable) :
    s.advanceMark = s := by
  unfold State.advanceMark
  cases hr : s.lc.reservations with
  | nil => rfl
  | cons r rest =>
    unfold advanceOver
    refine if_neg ?_
    rintro ⟨hw, hlt⟩
    exact (h r rest hr).elim (· hw) (Nat.not_le.mpr hlt)

/-- It passes one that is, and goes on from what its report leaves. -/
theorem State.advanceMark_passes (hr : s.lc.reservations = r :: rest) (hw : r.state = .written)
    (hd : s.lc.durable < s.lc.live) :
    s.advanceMark =
      (({ s with lc := { s.lc with reservations := rest, durable := s.lc.durable + 1 } } : State).passEntry r).advanceMark := by
  have hrest : rest = (({ s with lc := { s.lc with reservations := rest, durable := s.lc.durable + 1 } } :
      State).passEntry r).lc.reservations := by
    rw [State.passEntry_reservations]
  unfold State.advanceMark
  rw [hr, ← hrest]
  exact if_pos ⟨hw, hd⟩

end

theorem State.passEntry_capture {s : State} {r : Reservation} (hp : r.purpose = .capture) (hf : r.failure = none) :
    s.passEntry r = (s.slotDurable r.slot).countCapture r.level := by
  unfold State.passEntry
  rw [hp, hf]

theorem State.passEntry_voided {s : State} {r : Reservation} (hp : r.purpose = .capture) (hf : r.failure ≠ none) :
    s.passEntry r = s.slotDurable r.slot := by
  obtain ⟨f, hf⟩ := Option.ne_none_iff_exists'.mp hf
  unfold State.passEntry
  rw [hp, hf]

theorem State.passEntry_marker {s : State} {r : Reservation} (hp : r.purpose = .marker) (hf : r.failure = none) :
    s.passEntry r = (s.slotDurable r.slot).markerDurable r := by
  unfold State.passEntry
  rw [hp, hf]

theorem State.passEntry_failed {s : State} {r : Reservation} {f : MemFailure} (hp : r.purpose = .marker)
    (hf : r.failure = some f) : s.passEntry r = (s.slotDurable r.slot).markerFailed (failureCondition f) := by
  unfold State.passEntry
  rw [hp, hf]

theorem State.countCapture_eq (s : State) {k : Nat} (hk : k ≠ 0) :
    s.countCapture k = { s with oc := { s.oc with
      stack := s.oc.stack.modify (k - 1) fun l => { l with captures := addCaptures l.captures 1 } } } := by
  unfold State.countCapture State.setLevel
  rw [if_neg hk]
  rfl

/-! ## A capture's requests complete (R84, R85) -/

section
variable {s : State} {i : Nat} {c : Context}

theorem CaptureEngine.context_eq {ce : CaptureEngine} (h : ce.contexts[i]? = some (some c)) : ce.context i = some c := by
  unfold CaptureEngine.context
  rw [h]
  rfl

theorem State.captureRead_of {d : BlockData} (hc : s.ce.context i = some c) (h : s.endsWith (.ce i .read) (.okay d)) :
    s.captureRead d = some (s.portFreed.setContext i { c with bytes := d, state := .writingPayload }) := by
  simp only [State.captureRead, State.portOutcome_okay h, hc]

theorem State.capturePayload_of (hc : s.ce.context i = some c) (h : s.endsWith (.ce i .payload) (.okay 0)) :
    s.capturePayload = some (s.portFreed.setContext i { c with state := .writingHeader }) := by
  simp only [State.capturePayload, State.portOutcome_okay h, hc]

theorem State.captureHeader_of (hc : s.ce.context i = some c) (h : s.endsWith (.ce i .header) (.okay 0)) :
    s.captureHeader =
      some ((s.portFreed.setContext i { c with state := .written }).slotWritten c.slot).advanceMark := by
  simp only [State.captureHeader, State.portOutcome_okay h, hc]

end

/-- A context made WRITTEN stands no longer once its slot is durable. -/
theorem contexts_set_filter {contexts : List (Option Context)} {i : Nat} {c x : Context} {slot : Nat}
    (hi : contexts[i]? = some (some c)) (hc : c.slot = slot) (hx : x.slot = slot) :
    ((contexts.set i (some x)).map fun y => y.filter fun y => decide (y.slot ≠ slot)) =
      contexts.map fun y => y.filter fun y => decide (y.slot ≠ slot) := by
  refine List.ext_getElem? fun j => ?_
  rw [List.getElem?_map, List.getElem?_map, List.getElem?_set]
  by_cases hj : i = j
  · subst hj
    have hlen : i < contexts.length := (List.getElem?_eq_some_iff.mp hi).1
    rw [if_pos rfl, if_pos hlen, hi]
    simp [Option.filter, hc, hx]
  · rw [if_neg hj]

/-- A capture that makes its slot WRITTEN leaves every other reservation. -/
theorem slotWritten_reservations_other {rest : List Reservation} {slot : Nat} (h : ∀ x ∈ rest, x.slot ≠ slot) :
    (rest.map fun x => if x.slot = slot then { x with state := .written } else x) = rest :=
  LogState.setReservation_other h _

/-- Settles O32: the read, the payload write, and the header write with the mark standing before an older slot or
passing this one. -/
theorem captureRequestsComplete : Obligations.CaptureRequestsComplete := by
  intro s i c hrun hi moved
  have hc : s.ce.context i = some c := CaptureEngine.context_eq hi
  refine ⟨fun d h => claim_some hrun (State.captureRead_of hc h), fun h => claim_some hrun (State.capturePayload_of hc h),
    fun r rest h hr => ⟨fun hslot hw => ?_, fun hslot hp hf hk hlt hother => ?_⟩⟩
  · refine (claim_some hrun (State.captureHeader_of hc h)).trans ?_
    have hres : (s.portFreed.setContext i { c with state := .written }).lc.reservations = r :: rest := hr
    rw [State.advanceMark_stays]
    · unfold State.slotWritten LogState.setReservation
      rw [hres, List.map_cons, if_neg hslot]
      rfl
    · intro r' rest' hr'
      rw [State.slotWritten_lc] at hr'
      unfold LogState.setReservation at hr'
      rw [hres, List.map_cons, if_neg hslot] at hr'
      injection hr' with hr' _
      exact .inl (hr' ▸ hw)
  · intro passed
    have hheader := claim_some hrun (State.captureHeader_of hc h)
    have hpass : ((s.portFreed.setContext i { c with state := .written }).slotWritten c.slot).advanceMark =
        passed.advanceMark := by
      have hres : ((s.portFreed.setContext i { c with state := .written }).slotWritten c.slot).lc.reservations =
          { r with state := .written } :: rest := by
        have hr' : (s.portFreed.setContext i { c with state := .written }).lc.reservations = r :: rest := hr
        rw [State.slotWritten_lc]
        unfold LogState.setReservation
        rw [hr', List.map_cons, if_pos hslot, slotWritten_reservations_other hother]
      rw [State.advanceMark_passes hres rfl hlt, State.passEntry_capture (r := { r with state := .written }) hp hf,
        State.slotDurable_leaves,
        State.countCapture_eq _ hk]
      have hctx := contexts_set_filter (x := { c with state := .written }) hi rfl rfl
      simp only [hslot]
      exact congrArg State.advanceMark
        (State.ext rfl rfl rfl rfl rfl rfl rfl (CaptureEngine.ext hctx rfl) rfl rfl rfl rfl rfl rfl rfl)
    rw [hpass] at hheader
    refine ⟨hheader, fun hrest => State.advanceMark_stays fun r' rest' hr' => .inl (hrest r' ?_)⟩
    have hr'' : rest = r' :: rest' := hr'
    rw [hr'']
    exact List.mem_cons_self ..

/-! ## A run of captures (R29) -/

/-- The stack once the captures of a run have been counted (R42). -/
def countRun (run : List Reservation) (stack : List Level) : List Level :=
  run.foldl (fun stack r =>
    if r.failure = none then
      stack.modify (r.level - 1) fun l => { l with captures := addCaptures l.captures 1 }
    else stack) stack

/-- The state once the mark has passed a run of captures. -/
def State.runPassed (s : State) (run rest : List Reservation) : State :=
  { s with
    lc := { s.lc with reservations := rest, durable := s.lc.durable + run.length }
    ce := { s.ce with
      contexts := s.ce.contexts.map fun x => x.filter fun y => run.all fun r => decide (y.slot ≠ r.slot) }
    hq := { s.hq with
      entries := s.hq.entries.map fun e =>
        if run.any (fun r => decide (e.capture = .depends r.slot)) then { e with capture := .free } else e }
    oc := { s.oc with stack := countRun run s.oc.stack } }

theorem State.runPassed_nil {s : State} {rest : List Reservation} (hr : s.lc.reservations = rest) :
    s.runPassed [] rest = s := by
  have hctx (x : Option Context) : (x.filter fun _ => true) = x := by cases x <;> rfl
  unfold State.runPassed
  simp only [List.all_nil, List.any_nil, hctx, Bool.false_eq_true, if_false, List.map_id', ← hr]
  rfl

/-- A capture's report, counted unless its slot was voided. -/
theorem State.passEntry_run {s : State} {r : Reservation} (hp : r.purpose = .capture) (hk : r.level ≠ 0) :
    s.passEntry r = { s.slotDurable r.slot with oc := { s.oc with stack := countRun [r] s.oc.stack } } := by
  cases hf : r.failure with
  | none =>
    rw [State.passEntry_capture hp hf, State.countCapture_eq _ hk]
    simp only [countRun, List.foldl_cons, List.foldl_nil, hf, if_true]
    rfl
  | some f =>
    rw [State.passEntry_voided hp (by simp [hf])]
    simp only [countRun, List.foldl_cons, List.foldl_nil, hf, reduceCtorEq, if_false]
    rfl

/-- Two parts of a run are passed one after the other. -/
theorem State.runPassed_cons (s : State) (r : Reservation) (run rest : List Reservation) :
    (s.runPassed [r] (run ++ rest)).runPassed run rest = s.runPassed (r :: run) rest := by
  have hent (e : HoldEntry) :
      (if (run.any fun q => decide ((if e.capture = .depends r.slot then { e with capture := .free } else e).capture =
            .depends q.slot)) = true then
          { (if e.capture = .depends r.slot then { e with capture := CaptureState.free } else e) with capture := .free }
        else if e.capture = .depends r.slot then { e with capture := .free } else e) =
      if ((r :: run).any fun q => decide (e.capture = .depends q.slot)) = true then { e with capture := .free }
        else e := by
    by_cases h : e.capture = .depends r.slot
    · simp [h]
    · simp [h]
  have hctx (x : Option Context) :
      (x.filter fun y => [r].all fun q => decide (y.slot ≠ q.slot)).filter
          (fun y => run.all fun q => decide (y.slot ≠ q.slot)) =
        x.filter fun y => (r :: run).all fun q => decide (y.slot ≠ q.slot) := by
    rw [Option.filter_filter]
    congr 1
    funext y
    simp [Bool.and_comm]
  refine State.ext rfl rfl rfl rfl ?_ ?_ rfl ?_ rfl rfl rfl rfl rfl rfl rfl
  · have hlen : s.lc.durable + [r].length + run.length = s.lc.durable + (r :: run).length := by
      simp only [List.length_cons, List.length_nil]
      omega
    exact LogState.ext rfl rfl rfl rfl hlen rfl rfl rfl rfl rfl rfl rfl rfl rfl rfl
  · have hone (e : HoldEntry) : ([r].any fun q => decide (e.capture = .depends q.slot)) = decide (e.capture = .depends r.slot) := by
      simp
    refine HoldQueue.ext ?_ rfl rfl
    simp only [State.runPassed, List.map_map, Function.comp_def, hone, decide_eq_true_eq, hent]
  · refine CaptureEngine.ext ?_ rfl
    simp only [State.runPassed, List.map_map, Function.comp_def, hctx]

end Sys2Proof.Machine

/-! SUPPORT. The durable mark over a run, the completed writes that let it go on, and the failures that void a slot or
break the epochs. -/

namespace Sys2Proof.Machine

/-! ## Passing (R29, R86, R96) -/

/-- The report for the first reservation's slot, once the mark has passed it. -/
theorem State.slotDurable_passed (s : State) (r : Reservation) (rest : List Reservation) :
    ({ s with lc := { s.lc with reservations := rest, durable := s.lc.durable + 1 } } : State).slotDurable r.slot =
      { s.markPassed r rest with dp := s.dp } :=
  State.slotDurable_leaves _ _

/-- A run of one capture is passed as its entry is. -/
theorem State.passEntry_runPassed (s : State) {r : Reservation} {rest : List Reservation} (hp : r.purpose = .capture)
    (hk : r.level ≠ 0) :
    ({ s with lc := { s.lc with reservations := rest, durable := s.lc.durable + 1 } } : State).passEntry r =
      s.runPassed [r] rest := by
  rw [State.passEntry_run hp hk, State.slotDurable_passed]
  have hone (e : HoldEntry) :
      (if e.capture = .depends r.slot then { e with capture := CaptureState.free } else e) =
        if ([r].any fun q => decide (e.capture = .depends q.slot)) = true then { e with capture := .free } else e := by
    simp
  have hctx (x : Option Context) : (x.filter fun y => decide (y.slot ≠ r.slot)) =
      x.filter fun y => [r].all fun q => decide (y.slot ≠ q.slot) := by
    simp
  refine State.ext rfl rfl rfl rfl rfl ?_ rfl ?_ rfl rfl rfl rfl rfl rfl rfl
  · exact HoldQueue.ext (List.map_congr_left fun e _ => hone e) rfl rfl
  · exact CaptureEngine.ext (List.map_congr_left fun x _ => hctx x) rfl

/-- A run of captures is passed whole, and the mark stands before what follows it. -/
theorem State.advanceMark_run {rest : List Reservation} (hrest : ∀ r tail, rest = r :: tail → r.state ≠ .written) :
    ∀ (run : List Reservation) (s : State), s.lc.reservations = run ++ rest →
      (∀ r ∈ run, r.state = .written ∧ r.purpose = .capture ∧ r.level ≠ 0) → s.lc.durable + run.length ≤ s.lc.live →
      s.advanceMark = s.runPassed run rest
  | [], s, hr, _, _ => by
    rw [State.runPassed_nil (rest := rest) hr]
    exact State.advanceMark_stays fun r tail hcons => .inl (hrest r tail (hr.symm.trans hcons))
  | r :: run, s, hr, hrun, hlive => by
    obtain ⟨hw, hp, hk⟩ := hrun r (List.mem_cons_self ..)
    have hlt : s.lc.durable < s.lc.live := by
      rw [List.length_cons] at hlive
      omega
    have hlive' : s.lc.durable + 1 + run.length ≤ s.lc.live := by
      rw [List.length_cons] at hlive
      omega
    rw [State.advanceMark_passes (rest := run ++ rest) hr hw hlt, State.passEntry_runPassed s hp hk]
    exact (State.advanceMark_run hrest run (s.runPassed [r] (run ++ rest)) rfl
      (fun q hq => hrun q (List.mem_cons_of_mem _ hq)) hlive').trans (State.runPassed_cons s r run rest)

/-- Settles O33: where the mark stands, one entry by its purpose and failure, a run by induction, and the two writes
that move it. -/
theorem durableMarkPassesRun : Obligations.DurableMarkPassesRun := by
  refine ⟨fun s h => State.advanceMark_stays h, fun s r rest hr hw hd => ?_,
    fun s run rest hr hrun hrest hlive => State.advanceMark_run hrest run s hr hrun hlive, ?_⟩
  · intro passed
    have hpassed : _ = passed := s.slotDurable_passed r rest
    refine ⟨fun hp hf => ?_, fun hp hf hk => ?_, fun hp hf => ?_, fun f hp hf => ?_⟩ <;>
      rw [State.advanceMark_passes hr hw hd]
    · rw [State.passEntry_voided hp hf, hpassed]
    · rw [State.passEntry_capture hp hf, hpassed, State.countCapture_eq _ hk]
    · rw [State.passEntry_marker hp hf, hpassed]
    · rw [State.passEntry_failed hp hf, hpassed, failureCondition_eq]
  · intro s slot hrun marked
    have hwritten : s.portFreed.slotWritten slot = marked := rfl
    refine ⟨fun h => claim_some hrun ?_, fun h => claim_some hrun ?_⟩
    · simp only [State.markerWritten, State.portOutcome_okay h, hwritten]
    · simp only [State.voidWritten, State.portOutcome_okay h, hwritten]

/-! ## A capture that fails (R88 to R90) -/

section
variable {s : State} {i : Nat} {c : Context} {part : CaptureStep} {f : MemFailure}

theorem State.captureFails_of (hc : s.ce.context i = some c) (h : s.endsWith (.ce i part) (.failed f)) :
    s.captureFails f =
      if s.oc.detaching then some s.portFreed else some (s.portFreed.captureFailed i c f) := by
  simp only [State.captureFails, State.portOutcome_failed h, hc]

/-- The failure's own record: the context WRITTEN and failed, the slot VOIDING with its VOID queued, CAPTURE_FAILED. -/
def State.captureVoided (s : State) (i : Nat) (c : Context) (f : MemFailure) : State :=
  ((s.setContext i { c with failure := some f, state := .written }).slotFailed c.slot f).raise .captureFailed
    c.level (failureCondition f) c.serial c.block

theorem State.captureFailed_strict (h : s.opts.writeMode = .strict) :
    s.captureFailed i c f = (s.captureVoided i c f).refuseDependents c := by
  simp only [State.captureFailed, h]
  rfl

theorem State.captureFailed_posted (h : s.opts.writeMode = .posted) :
    s.captureFailed i c f = (s.captureVoided i c f).breakAll (failureCondition f) c.block := by
  simp only [State.captureFailed, h]
  rfl

end

/-! ## A break request (R42, R113, R184) -/

/-- EPOCH_BROKEN for each level not yet broken, in ascending order, `k` levels standing below those of the list. -/
theorem raiseBroken_eq (c : Condition) (a : Word32) (ls : List Level) :
    ∀ (k : Nat) (s : State), raiseBroken c a (k + 1) ls s = { s with
      eq := ((ls.zipIdx k).filter fun p => !p.1.broken).foldl (fun q p => q.push
        { kind := .epochBroken, level := BitVec.ofNat 8 (p.2 + 1), condition := c, serial := p.1.serial,
          argument := a }) s.eq } := by
  induction ls with
  | nil => exact fun k s => rfl
  | cons l rest ih =>
    intro k s
    rw [raiseBroken, ih (k + 1), List.zipIdx_cons]
    cases hb : l.broken
    · rw [List.filter_cons_of_pos (by simp [hb])]
      rfl
    · rw [List.filter_cons_of_neg (by simp [hb])]
      rfl

/-- Everything a break request does. -/
theorem State.breakAll_eq (s : State) (c : Condition) (a : Word32) :
    s.breakAll c a = { s with
      oc := { s.oc with stack := s.oc.stack.map fun l => { l with broken := true } }
      eq := (s.oc.stack.zipIdx.filter fun p => !p.1.broken).foldl (fun q p => q.push
        { kind := .epochBroken, level := BitVec.ofNat 8 (p.2 + 1), condition := c, serial := p.1.serial,
          argument := a }) s.eq
      re := { s.re with
        rangeBreak :=
          if s.re.stage = .settling ∧ s.re.rangeBreak = .none
              ∧ (s.oc.stack.drop (s.re.target - 1)).any (fun l => !l.broken) = true
          then c else s.re.rangeBreak } } := by
  unfold State.breakAll
  rw [raiseBroken_eq]
  simp only [Bool.and_eq_true, decide_eq_true_eq, and_assoc]

/-- Settles O34: the failure under STRICT, under POSTED and over an accepted DETACH; the break request. -/
theorem captureFailureHandled : Obligations.CaptureFailureHandled := by
  refine ⟨fun s i c part f hrun hi h => ?_, fun s cond block => State.breakAll_eq s cond block⟩
  intro cond u
  have hcond : failureCondition f = cond := failureCondition_eq f
  have hu : s.portFreed.captureVoided i c f = u := by
    unfold State.captureVoided
    rw [hcond]
    rfl
  have hfails := State.captureFails_of (CaptureEngine.context_eq hi) h
  refine ⟨fun hd hw => ?_, fun hd hw => ?_, fun hd => claim_some hrun (hfails.trans (if_pos hd))⟩
  · refine (claim_some hrun (hfails.trans (if_neg (by simp [hd])))).trans ?_
    rw [State.captureFailed_strict (s := s.portFreed) hw, hu]
    unfold State.refuseDependents filterRemove
    simp only [State.discardHeld_cf]
    rfl
  · refine (claim_some hrun (hfails.trans (if_neg (by simp [hd])))).trans ?_
    rw [State.captureFailed_posted (s := s.portFreed) hw, hu, hcond]

end Sys2Proof.Machine

/-! SUPPORT. The formats of the log area: the bits a check word covers, the layout of record headers and anchors, the
ring test and the choice of anchors. -/

namespace Sys2Proof.Machine

/-! ## Bits and fields -/

/-- The bits of a block from `start`, least significant first. -/
def bitRange (w : BlockData) (start count : Nat) : List Bool :=
  (List.range count).map fun i => w.getLsbD (start + i)

theorem bitsFrom_eq (w : BlockData) (count : Nat) : ∀ start, bitsFrom w start count = bitRange w start count := by
  induction count with
  | zero => exact fun start => rfl
  | succ n ih =>
    intro start
    rw [bitsFrom, ih]
    unfold bitRange
    rw [List.range_succ_eq_map, List.map_cons, List.map_map]
    refine congrArg₂ List.cons rfl (List.map_congr_left fun i _ => ?_)
    show w.getLsbD (start + 1 + i) = w.getLsbD (start + (i + 1))
    rw [Nat.add_right_comm, Nat.add_assoc]

theorem bitRange_congr {w x : BlockData} {start count : Nat}
    (h : ∀ i, start ≤ i → i < start + count → w.getLsbD i = x.getLsbD i) :
    bitRange w start count = bitRange x start count :=
  List.map_congr_left fun _ hi => h _ (Nat.le_add_right ..) (Nat.add_lt_add_left (List.mem_range.mp hi) _)

/-- Two concatenations with the same low part agree where their high parts do. -/
theorem getLsbD_append_congr {v w : Nat} {x x' : BitVec v} {y : BitVec w} {i : Nat}
    (h : w ≤ i → x.getLsbD (i - w) = x'.getLsbD (i - w)) : (x ++ y).getLsbD i = (x' ++ y).getLsbD i := by
  rw [BitVec.getLsbD_append, BitVec.getLsbD_append]
  by_cases hi : i < w
  · rw [if_pos hi, if_pos hi]
  · rw [if_neg hi, if_neg hi, h (Nat.not_lt.mp hi)]

/-- Above the low part a concatenation is its high part, whatever the low part is. -/
theorem getLsbD_append_above {v w : Nat} {x : BitVec v} {y y' : BitVec w} {i : Nat} (h : w ≤ i) :
    (x ++ y).getLsbD i = (x ++ y').getLsbD i := by
  rw [BitVec.getLsbD_append, BitVec.getLsbD_append, if_neg (Nat.not_lt.mpr h), if_neg (Nat.not_lt.mpr h)]

/-! ## Record headers (R20, R188) -/

/-- A block holds the fields of a header at their offsets (12.2), its check word apart. -/
def RecordHeader.laidOut (h : RecordHeader) (w : BlockData) : Prop :=
  w.extractLsb' 0 32 = 0x3C5A96E1#32
  ∧ w.extractLsb' 32 8 = (match h.kind with | .undo => 0x01#8 | .open_ => 0x02#8 | .void => 0x03#8)
  ∧ w.extractLsb' 40 8 = h.level ∧ w.extractLsb' 48 8 = 0x01#8 ∧ w.extractLsb' 56 8 = 0x00#8
  ∧ w.extractLsb' 64 32 = h.session ∧ w.extractLsb' 96 32 = h.sequence ∧ w.extractLsb' 128 32 = h.serial
  ∧ w.extractLsb' 160 32 = h.blockAddr ∧ w.extractLsb' 224 288 = 0#288

section
variable (h : RecordHeader) (check : Word32)

theorem RecordHeader.layout_laidOut : h.laidOut (h.layout check) := by
  unfold RecordHeader.laidOut RecordHeader.layout
  refine ⟨?_, ?_, ?_, ?_, ?_, ?_, ?_, ?_, ?_, ?_⟩
  · exact BitVec.extractLsb'_append_eq_right
  · iterate 1 rw [BitVec.extractLsb'_append_eq_of_le (by decide)]
    refine BitVec.extractLsb'_append_eq_right.trans ?_
    cases h.kind <;> rfl
  · iterate 2 rw [BitVec.extractLsb'_append_eq_of_le (by decide)]
    exact BitVec.extractLsb'_append_eq_right
  · iterate 3 rw [BitVec.extractLsb'_append_eq_of_le (by decide)]
    exact BitVec.extractLsb'_append_eq_right
  · iterate 4 rw [BitVec.extractLsb'_append_eq_of_le (by decide)]
    exact BitVec.extractLsb'_append_eq_right
  · iterate 5 rw [BitVec.extractLsb'_append_eq_of_le (by decide)]
    exact BitVec.extractLsb'_append_eq_right
  · iterate 6 rw [BitVec.extractLsb'_append_eq_of_le (by decide)]
    exact BitVec.extractLsb'_append_eq_right
  · iterate 7 rw [BitVec.extractLsb'_append_eq_of_le (by decide)]
    exact BitVec.extractLsb'_append_eq_right
  · iterate 8 rw [BitVec.extractLsb'_append_eq_of_le (by decide)]
    exact BitVec.extractLsb'_append_eq_right
  · iterate 9 rw [BitVec.extractLsb'_append_eq_of_le (by decide)]
    exact BitVec.extractLsb'_append_eq_left

theorem RecordHeader.layout_check : (h.layout check).extractLsb' 192 32 = check := by
  unfold RecordHeader.layout
  iterate 9 rw [BitVec.extractLsb'_append_eq_of_le (by decide)]
  exact BitVec.extractLsb'_append_eq_right

/-- Outside bytes 24 to 27 the check word is not seen. -/
theorem RecordHeader.layout_getLsbD (i : Nat) (hi : i < 192 ∨ 224 ≤ i) :
    (h.layout check).getLsbD i = (h.layout 0).getLsbD i := by
  unfold RecordHeader.layout
  refine getLsbD_append_congr fun h1 => ?_
  refine getLsbD_append_congr fun h2 => ?_
  refine getLsbD_append_congr fun h3 => ?_
  refine getLsbD_append_congr fun h4 => ?_
  refine getLsbD_append_congr fun h5 => ?_
  refine getLsbD_append_congr fun h6 => ?_
  refine getLsbD_append_congr fun h7 => ?_
  refine getLsbD_append_congr fun h8 => ?_
  refine getLsbD_append_congr fun h9 => ?_
  exact getLsbD_append_above (by omega)

/-- The check word of a header covers the same bits whatever stands in its place. -/
theorem RecordHeader.headerBits_layout :
    headerBits (h.layout 0) = bitRange (h.layout check) 0 192 ++ bitRange (h.layout check) 224 288 := by
  unfold headerBits
  rw [bitsFrom_eq, bitsFrom_eq]
  refine congrArg₂ (· ++ ·) (bitRange_congr fun i _ hi => ?_) (bitRange_congr fun i hi _ => ?_)
  · exact (h.layout_getLsbD check i (.inl (by omega))).symm
  · exact (h.layout_getLsbD check i (.inr hi)).symm

theorem RecordHeader.encode_check :
    h.encode.extractLsb' 192 32 = crc32 (bitRange h.encode 0 192 ++ bitRange h.encode 224 288) := by
  unfold RecordHeader.encode
  rw [RecordHeader.layout_check, ← RecordHeader.headerBits_layout]
  rfl

theorem RecordHeader.encodeUndo_check (payload : BlockData) :
    (h.encodeUndo payload).extractLsb' 192 32 =
      crc32 (bitRange (h.encodeUndo payload) 0 192 ++ bitRange (h.encodeUndo payload) 224 288
        ++ bitRange payload 0 512) := by
  unfold RecordHeader.encodeUndo
  rw [RecordHeader.layout_check, ← RecordHeader.headerBits_layout, ← bitsFrom_eq]
  rfl

end

/-! ## The check word and the ring test (R22, R188, R189) -/

theorem crc32_eq (input : List Bool) :
    crc32 input =
      input.foldl (fun (r : Word32) b => if r.getLsbD 0 = b then r >>> 1 else (r >>> 1) ^^^ 0xEDB88320#32) 0xFFFFFFFF#32
        ^^^ 0xFFFFFFFF#32 := by
  have hbit : crcBit = fun (r : Word32) b =>
      if r.getLsbD 0 = b then r >>> 1 else (r >>> 1) ^^^ 0xEDB88320#32 := by
    funext r b
    unfold crcBit
    by_cases h : r.getLsbD 0 = b
    · rw [if_pos h, if_neg (by rw [h, bne_self_eq_false]; decide)]
    · rw [if_neg h, if_pos (bne_iff_ne.mpr h)]
  unfold crc32
  rw [hbit]

theorem checkWordOk_iff {k : RecordKind} {h payload : BlockData} :
    checkWordOk k h payload = true ↔
      h.extractLsb' 192 32 = crc32 ((bitRange h 0 192 ++ bitRange h 224 288)
        ++ if k = .undo then bitRange payload 0 512 else []) := by
  have hbits : headerBits h = bitRange h 0 192 ++ bitRange h 224 288 := by
    unfold headerBits
    rw [bitsFrom_eq, bitsFrom_eq]
  unfold checkWordOk
  rw [decide_eq_true_eq, ← hbits]
  cases k
  · rw [if_pos rfl, ← bitsFrom_eq]
    rfl
  · rw [if_neg (by decide), List.append_nil]
    rfl
  · rw [if_neg (by decide), List.append_nil]
    rfl

section
variable {lc : LogState} {n slot : Nat} {h payload : BlockData} {k : RecordKind}

theorem ringTest_of_no_kind (hk : headerKind h = none) : ringTest lc n slot h payload = .fails .badSignature := by
  unfold ringTest
  rw [hk]

/-- The tests after the signature's, in order. -/
theorem ringTest_of_kind (hk : headerKind h = some k) :
    ringTest lc n slot h payload =
      if !checkWordOk k h payload then .fails .badCheck
      else if headerSession h ≠ lc.session then .fails .badSession
      else if headerSequence h ≠ lc.sequenceOf n slot then .fails .badSequence
      else .passes k := by
  unfold ringTest
  rw [hk]

end

theorem ringDistance_eq {n tail slot : Nat} (ht : tail < n) (hs : slot < n) :
    ringDistance n tail slot = if tail ≤ slot then slot - tail else slot + n - tail := by
  unfold ringDistance
  rw [if_neg (by omega), Nat.mod_eq_of_lt ht]
  by_cases h : tail ≤ slot
  · rw [if_pos h, show slot + n - tail = slot - tail + n by omega, Nat.add_mod_right, Nat.mod_eq_of_lt (by omega)]
  · rw [if_neg h, Nat.mod_eq_of_lt (by omega)]

theorem State.restorable_iff {s : State} {a : Addr} :
    s.restorable a = true ↔
      (∃ w ∈ s.windows, w.valid = true ∧ w.mode = .track ∧ w.base.toNat ≤ a.toNat ∧ a.toNat < w.limit.toNat)
      ∧ (s.log.slots = 0 ∨ a.toNat < s.log.base.toNat ∨ s.log.base.toNat + 0x80 + s.log.slots * 0x80 ≤ a.toNat) := by
  unfold State.restorable
  rw [Bool.and_eq_true, State.tracked_iff, Bool.not_eq_true', ← Bool.not_eq_true, LogConfig.contains_iff]
  refine and_congr Iff.rfl ?_
  rw [not_and_or, not_and_or, not_not, Nat.not_le, Nat.not_lt]

/-- Settles O35: the layouts field by field, the polynomial bit by bit, the ring test's order, and the places. -/
theorem recordsLaidOutAndTested : Obligations.RecordsLaidOutAndTested := by
  unfold Obligations.RecordsLaidOutAndTested
  intro bits headerChecked
  refine ⟨fun h payload => ?_, crc32_eq, fun lc n slot h payload => ?_, fun n tail slot ht hs => ringDistance_eq ht hs,
    fun s a => State.restorable_iff⟩
  · exact ⟨h.layout_laidOut _, h.layout_laidOut _, h.encode_check, h.encodeUndo_check payload⟩
  · intro kind
    have hkind : headerKind h = kind := rfl
    refine ⟨hkind, rfl, rfl, fun hk => ringTest_of_no_kind (hkind.trans hk), fun k hk => ?_⟩
    intro checks inSession inSequence
    have hchecks : checkWordOk k h payload = true ↔ checks := checkWordOk_iff
    rw [ringTest_of_kind (hkind.trans hk)]
    refine ⟨fun h1 => ?_, fun h1 h2 => ?_, fun h1 h2 h3 => ?_, fun h1 h2 h3 => ?_⟩
    · exact if_pos (by simpa using mt hchecks.mp h1)
    · rw [if_neg (by simpa using hchecks.mpr h1)]
      exact if_pos h2
    · rw [if_neg (by simpa using hchecks.mpr h1)]
      exact (if_neg (not_not.mpr h2)).trans (if_pos h3)
    · rw [if_neg (by simpa using hchecks.mpr h1)]
      exact (if_neg (not_not.mpr h2)).trans (if_neg (not_not.mpr h3))

/-! ## Anchors (R32 to R34) -/

section
variable (a : Anchor) (check : Word32)

/-- A block holds the fields of an anchor at their offsets (12.2), its check word apart. -/
def Anchor.laidOut (a : Anchor) (w : BlockData) : Prop :=
  w.extractLsb' 0 32 = 0x3C5AA50F#32 ∧ w.extractLsb' 32 32 = a.generation ∧ w.extractLsb' 64 32 = a.session
    ∧ w.extractLsb' 96 32 = a.slots ∧ w.extractLsb' 128 32 = a.tail ∧ w.extractLsb' 160 32 = a.tailSequence
    ∧ w.extractLsb' 192 32 = a.nextSerial ∧ w.extractLsb' 256 256 = 0#256

theorem Anchor.layout_laidOut : a.laidOut (a.layout check) := by
  unfold Anchor.laidOut Anchor.layout
  refine ⟨?_, ?_, ?_, ?_, ?_, ?_, ?_, ?_⟩
  · exact BitVec.extractLsb'_append_eq_right
  · iterate 1 rw [BitVec.extractLsb'_append_eq_of_le (by decide)]
    exact BitVec.extractLsb'_append_eq_right
  · iterate 2 rw [BitVec.extractLsb'_append_eq_of_le (by decide)]
    exact BitVec.extractLsb'_append_eq_right
  · iterate 3 rw [BitVec.extractLsb'_append_eq_of_le (by decide)]
    exact BitVec.extractLsb'_append_eq_right
  · iterate 4 rw [BitVec.extractLsb'_append_eq_of_le (by decide)]
    exact BitVec.extractLsb'_append_eq_right
  · iterate 5 rw [BitVec.extractLsb'_append_eq_of_le (by decide)]
    exact BitVec.extractLsb'_append_eq_right
  · iterate 6 rw [BitVec.extractLsb'_append_eq_of_le (by decide)]
    exact BitVec.extractLsb'_append_eq_right
  · iterate 7 rw [BitVec.extractLsb'_append_eq_of_le (by decide)]
    exact BitVec.extractLsb'_append_eq_left

theorem Anchor.layout_check : (a.layout check).extractLsb' 224 32 = check := by
  unfold Anchor.layout
  iterate 7 rw [BitVec.extractLsb'_append_eq_of_le (by decide)]
  exact BitVec.extractLsb'_append_eq_right

theorem Anchor.layout_getLsbD (i : Nat) (hi : i < 224 ∨ 256 ≤ i) :
    (a.layout check).getLsbD i = (a.layout 0).getLsbD i := by
  unfold Anchor.layout
  refine getLsbD_append_congr fun h1 => ?_
  refine getLsbD_append_congr fun h2 => ?_
  refine getLsbD_append_congr fun h3 => ?_
  refine getLsbD_append_congr fun h4 => ?_
  refine getLsbD_append_congr fun h5 => ?_
  refine getLsbD_append_congr fun h6 => ?_
  refine getLsbD_append_congr fun h7 => ?_
  exact getLsbD_append_above (by omega)

theorem anchorCheck_eq (w : BlockData) : anchorCheck w = crc32 (bitRange w 0 224 ++ bitRange w 256 256) := by
  unfold anchorCheck
  rw [bitsFrom_eq, bitsFrom_eq]

theorem Anchor.encode_check :
    a.encode.extractLsb' 224 32 = crc32 (bitRange a.encode 0 224 ++ bitRange a.encode 256 256) := by
  unfold Anchor.encode
  rw [Anchor.layout_check, anchorCheck_eq]
  refine congrArg crc32 (congrArg₂ (· ++ ·) (bitRange_congr fun i _ hi => ?_) (bitRange_congr fun i hi _ => ?_))
  · exact (a.layout_getLsbD _ i (.inl (by omega))).symm
  · exact (a.layout_getLsbD _ i (.inr hi)).symm

end

theorem readAnchor_iff {n : Nat} {w : BlockData} {a : Anchor} :
    readAnchor n w = some a ↔
      w.extractLsb' 0 32 = 0x3C5AA50F#32 ∧ w.extractLsb' 224 32 = anchorCheck w ∧ a.slots.toNat = n ∧ a.tail.toNat < n
      ∧ a = anchorFields w := by
  unfold readAnchor
  constructor
  · intro h
    split at h
    · rename_i hall
      obtain ⟨hsig, hcheck, hslots, htail⟩ := hall
      obtain rfl := Option.some.inj h
      exact ⟨hsig, hcheck, hslots, htail, rfl⟩
    · cases h
  · rintro ⟨hsig, hcheck, hslots, htail, rfl⟩
    exact if_pos ⟨hsig, hcheck, hslots, htail⟩

theorem newerGeneration_iff {x y : Word32} :
    newerGeneration x y = true ↔ 1 ≤ (x - y).toNat ∧ (x - y).toNat ≤ 0x7FFFFFFF := by
  unfold newerGeneration
  rw [Bool.and_eq_true, decide_eq_true_eq, decide_eq_true_eq]

/-- A generation at most 7FFFFFFFH ahead of the other is the newer, or equal to it. -/
theorem takesA_of_ahead {x y : Word32} (h : (x - y).toNat ≤ 0x7FFFFFFF) : takesA x y = true := by
  unfold takesA
  refine if_pos ?_
  by_cases hxy : x = y
  · exact .inl hxy
  · refine .inr ?_
    have hne : (x - y).toNat ≠ 0 := by
      intro hz
      have := x.isLt
      have := y.isLt
      apply hxy
      apply BitVec.eq_of_toNat_eq
      rw [BitVec.toNat_sub] at hz
      omega
    exact newerGeneration_iff.mpr ⟨Nat.one_le_iff_ne_zero.mpr hne, h⟩

theorem takesA_of_behind {x y : Word32} (h : 0x80000000 < (x - y).toNat) : takesA x y = false := by
  have hx := x.isLt
  have hy := y.isLt
  have hsub : (x - y).toNat = (2 ^ 32 - y.toNat + x.toNat) % 2 ^ 32 := BitVec.toNat_sub ..
  have hsub' : (y - x).toNat = (2 ^ 32 - x.toNat + y.toNat) % 2 ^ 32 := BitVec.toNat_sub ..
  have hne : x ≠ y := by
    rintro rfl
    omega
  have hnot : newerGeneration x y = false := by
    rw [← Bool.not_eq_true, newerGeneration_iff]
    omega
  have hnew : newerGeneration y x = true := by
    rw [newerGeneration_iff]
    omega
  unfold takesA
  rw [if_neg (by simp [hne, hnot]), if_pos hnew]

theorem recoveredSerial_used_up {next highest : Word32} (h : next = 0 ∨ highest = 0xFFFFFFFF#32) :
    recoveredSerial next highest = 0 := by
  unfold recoveredSerial
  by_cases hn : next = 0
  · exact if_pos hn
  · rw [if_neg hn, if_pos (h.resolve_left hn)]

theorem recoveredSerial_toNat {next highest : Word32} (hn : next ≠ 0) (hh : highest ≠ 0xFFFFFFFF#32) :
    (recoveredSerial next highest).toNat = max next.toNat (highest.toNat + 1) := by
  have hlt : highest.toNat < 0xFFFFFFFF := by
    have := highest.isLt
    have hne : highest.toNat ≠ 0xFFFFFFFF := fun heq => hh (BitVec.eq_of_toNat_eq heq)
    omega
  have hsucc : (highest + 1).toNat = highest.toNat + 1 := by
    rw [BitVec.toNat_add]
    exact Nat.mod_eq_of_lt (by show highest.toNat + 1 < _; omega)
  unfold recoveredSerial
  rw [if_neg hn, if_neg hh]
  by_cases hle : next.toNat ≤ highest.toNat + 1
  · rw [if_pos hle, hsucc, Nat.max_eq_right hle]
  · rw [if_neg hle, Nat.max_eq_left (by omega)]

/-! ## The copy an anchor goes to (R32) -/

theorem selectAnchor_some (a b : Anchor) :
    selectAnchor (some a) (some b) = if takesA a.generation b.generation then some a else some b := rfl

section
variable {lc : LogState}

theorem LogState.olderCopy_eq :
    lc.olderCopy = if lc.copyA.standing = .valid ∧ (lc.copyB.standing = .valid →
      takesA lc.copyA.generation lc.copyB.generation = true) then .b else .a := by
  unfold LogState.olderCopy
  by_cases ha : lc.copyA.standing = .valid
  · by_cases hb : lc.copyB.standing = .valid <;> simp [ha, hb]
  · simp [ha]

theorem LogState.nextGeneration_of_b (h : lc.copyA.standing ≠ .valid) :
    lc.nextGeneration = if lc.copyB.standing = .valid then lc.copyB.generation + 1 else 1 := by
  unfold LogState.nextGeneration
  rw [if_neg h]

theorem LogState.nextGeneration_of_a (h : lc.copyA.standing = .valid) (h' : lc.copyB.standing ≠ .valid) :
    lc.nextGeneration = lc.copyA.generation + 1 := by
  unfold LogState.nextGeneration
  rw [if_pos h, if_neg h']

theorem LogState.nextGeneration_of_both (h : lc.copyA.standing = .valid) (h' : lc.copyB.standing = .valid) :
    lc.nextGeneration =
      if takesA lc.copyA.generation lc.copyB.generation then lc.copyA.generation + 1 else lc.copyB.generation + 1 := by
  unfold LogState.nextGeneration
  rw [if_pos h, if_pos h']
  split <;> rfl

end

/-- Settles O36: layout, validity, choice, the copy and its generation case by case of the standings, and the fields by
occasion. -/
theorem anchorsLaidOutAndChosen : Obligations.AnchorsLaidOutAndChosen := by
  unfold Obligations.AnchorsLaidOutAndChosen
  intro bits check
  refine ⟨fun a => ?_, fun n w a => ?_, fun a => ⟨rfl, rfl, rfl, rfl, rfl, rfl, rfl⟩, fun a b => ⟨fun h => ?_, fun h => ?_, ?_⟩,
    fun s o => ?_, fun w => rfl, fun next highest => ⟨recoveredSerial_used_up, recoveredSerial_toNat⟩⟩
  · obtain ⟨h0, h1, h2, h3, h4, h5, h6, h8⟩ := a.layout_laidOut (anchorCheck (a.layout 0))
    exact ⟨h0, h1, h2, h3, h4, h5, h6, a.encode_check, h8⟩
  · rw [readAnchor_iff, anchorCheck_eq]
    rfl
  · rw [selectAnchor_some, takesA_of_ahead h]
    rfl
  · rw [selectAnchor_some, takesA_of_behind h]
    rfl
  · rw [selectAnchor_some]
    split
    · exact .inl rfl
    · exact .inr rfl
  · intro job a b ahead toA toB
    have hcopy : job.copy = s.lc.olderCopy := rfl
    have hgen : job.anchor.generation = s.lc.nextGeneration := rfl
    have hA (ht : takesA a.generation b.generation = true) (h : a.standing = .valid) (h' : b.standing = .valid) :
        toB (a.generation + 1) := by
      refine ⟨?_, ?_⟩
      · rw [hcopy, LogState.olderCopy_eq, if_pos ⟨h, fun _ => ht⟩]
      · rw [hgen, LogState.nextGeneration_of_both h h', if_pos ht]
    have hB (ht : takesA a.generation b.generation = false) (h : a.standing = .valid) (h' : b.standing = .valid) :
        toA (b.generation + 1) := by
      refine ⟨?_, ?_⟩
      · rw [hcopy, LogState.olderCopy_eq, if_neg (fun hall => Bool.false_ne_true (ht.symm.trans (hall.2 h')))]
      · rw [hgen, LogState.nextGeneration_of_both h h', if_neg (by rw [ht]; decide)]
    refine ⟨⟨rfl, rfl, rfl⟩, fun h h' => ⟨?_, ?_⟩, fun h h' => ⟨?_, ?_⟩, fun h h' => ⟨?_, ?_⟩,
      fun h h' => ⟨fun ht => hA (takesA_of_ahead ht) h h', fun ht => hB (takesA_of_behind ht) h h', ?_⟩, ?_, ?_⟩
    · rw [hcopy, LogState.olderCopy_eq, if_neg (fun hall => h hall.1)]
    · rw [hgen, LogState.nextGeneration_of_b h, if_neg h']
    · rw [hcopy, LogState.olderCopy_eq, if_neg (fun hall => h hall.1)]
    · rw [hgen, LogState.nextGeneration_of_b h, if_pos h']
    · rw [hcopy, LogState.olderCopy_eq, if_pos ⟨h, fun hv => absurd hv h'⟩]
    · rw [hgen, LogState.nextGeneration_of_a h h']
    · cases ht : takesA a.generation b.generation
      · exact .inr (hB ht h h')
      · exact .inl (hA ht h h')
    · cases o <;> rfl
    · cases o <;> rfl

end Sys2Proof.Machine

/-! SUPPORT. The ends of the log's own writes: markers and VOID records that let the mark go on, a log that dies, an
anchor, and the markers of a rotation. -/

namespace Sys2Proof.Machine

/-! ## Marker and VOID writes (R29 to R31) -/

section
variable {s : State} {r : Reservation} {rest : List Reservation} {f : MemFailure}

/-- The slot's write lets the mark pass it: the entry's report is given on the state the mark leaves. -/
theorem State.slotWritten_passes (hr : s.lc.reservations = r :: rest) (hlt : s.lc.durable < s.lc.live)
    (hother : ∀ x ∈ rest, x.slot ≠ r.slot) :
    (s.portFreed.slotWritten r.slot).advanceMark =
      (({ s.portFreed with lc := { s.lc with reservations := rest, durable := s.lc.durable + 1 } } : State).passEntry
        { r with state := .written }).advanceMark := by
  have hres : (s.portFreed.slotWritten r.slot).lc.reservations = { r with state := .written } :: rest := by
    have hr' : s.portFreed.lc.reservations = r :: rest := hr
    rw [State.slotWritten_lc]
    unfold LogState.setReservation
    rw [hr', List.map_cons, if_pos rfl, slotWritten_reservations_other hother]
  rw [State.advanceMark_passes hres rfl hlt]
  rfl

/-- What the report for a slot leaves, the port free. -/
theorem State.slotDurable_freed (s : State) (r : Reservation) (rest : List Reservation) :
    ({ s.portFreed with lc := { s.lc with reservations := rest, durable := s.lc.durable + 1 } } : State).slotDurable r.slot =
      s.markPassed r rest :=
  State.slotDurable_leaves _ _

theorem exec_markerWriteComplete (hrun : s.running) (hr : s.lc.reservations = r :: rest) (hlt : s.lc.durable < s.lc.live)
    (hother : ∀ x ∈ rest, x.slot ≠ r.slot) (h : s.endsWith (.lcOpen r.slot) (.okay 0)) (hp : r.purpose = .marker)
    (hf : r.failure = none) :
    exec .markerWriteComplete s =
      .next (finish s ((s.markPassed r rest).markerDurable { r with state := .written }).advanceMark) := by
  refine claim_some hrun ?_
  simp only [State.markerWritten, State.portOutcome_okay h]
  rw [State.slotWritten_passes hr hlt hother, State.passEntry_marker (r := { r with state := .written }) hp hf,
    State.slotDurable_freed s r rest]

theorem exec_voidWriteComplete (hrun : s.running) (hr : s.lc.reservations = r :: rest) (hlt : s.lc.durable < s.lc.live)
    (hother : ∀ x ∈ rest, x.slot ≠ r.slot) (h : s.endsWith (.lcVoid r.slot) (.okay 0)) :
    exec .voidWriteComplete s = .next (finish s
      (({ s.portFreed with lc := { s.lc with reservations := rest, durable := s.lc.durable + 1 } } : State).passEntry
        { r with state := .written }).advanceMark) := by
  refine claim_some hrun ?_
  simp only [State.voidWritten, State.portOutcome_okay h]
  rw [State.slotWritten_passes hr hlt hother]

theorem exec_voidWriteComplete_marker (hrun : s.running) (hr : s.lc.reservations = r :: rest)
    (hlt : s.lc.durable < s.lc.live) (hother : ∀ x ∈ rest, x.slot ≠ r.slot) (h : s.endsWith (.lcVoid r.slot) (.okay 0))
    (hp : r.purpose = .marker) (hf : r.failure = some f) :
    exec .voidWriteComplete s =
      .next (finish s ((s.markPassed r rest).markerFailed (failureCondition f)).advanceMark) := by
  rw [exec_voidWriteComplete hrun hr hlt hother h,
    State.passEntry_failed (r := { r with state := .written }) hp hf, State.slotDurable_freed s r rest]

theorem exec_voidWriteComplete_capture (hrun : s.running) (hr : s.lc.reservations = r :: rest)
    (hlt : s.lc.durable < s.lc.live) (hother : ∀ x ∈ rest, x.slot ≠ r.slot) (h : s.endsWith (.lcVoid r.slot) (.okay 0))
    (hp : r.purpose = .capture) (hf : r.failure ≠ none) :
    exec .voidWriteComplete s = .next (finish s (s.markPassed r rest).advanceMark) := by
  rw [exec_voidWriteComplete hrun hr hlt hother h,
    State.passEntry_voided (r := { r with state := .written }) hp hf, State.slotDurable_freed s r rest]

theorem State.markerFailed_openMarker (hp : s.oc.phase = .openMarker) (c : Condition) :
    s.markerFailed c = s.openMarkerFailed c := by
  simp only [State.markerFailed, hp]

theorem State.markerFailed_rotateMarker (hp : s.oc.phase = .rotateMarker) (c : Condition) :
    s.markerFailed c = s.abandonRotation c := by
  simp only [State.markerFailed, hp]

theorem State.markerFailed_lateMarker {origin : RotationOrigin} (hp : s.oc.phase = .rotateLateMarker origin)
    (c : Condition) : s.markerFailed c = s.lateMarkerFailed origin c := by
  simp only [State.markerFailed, hp]

theorem State.markerDurable_openMarker (hp : s.oc.phase = .openMarker) (e : Reservation) :
    s.markerDurable e = s.openMarkerDurable e := by
  simp only [State.markerDurable, hp]

theorem State.markerDurable_rotateMarker (hp : s.oc.phase = .rotateMarker) (e : Reservation) :
    s.markerDurable e = ({ s with oc := { s.oc with phase := .rotateAnchor } } : State).queueWrite
      (.anchor (.rotateMarker e.slot e.sequence)) := by
  simp only [State.markerDurable, hp]

theorem State.markerDurable_lateMarker {origin : RotationOrigin} (hp : s.oc.phase = .rotateLateMarker origin)
    (e : Reservation) : s.markerDurable e = s.lateMarkerDurable origin e := by
  simp only [State.markerDurable, hp]

/-- A durable marker of an OPEN: the level durable, the operation ended, OPENED (R51, R58). -/
theorem State.openMarkerDurable_eq (e : Reservation) (hk : e.level ≠ 0) :
    s.openMarkerDurable e = { s with
      oc := { s.oc with
        stack := s.oc.stack.modify (e.level - 1) fun l => { l with durable := true }
        op := .idle, phase := .none, timer := if e.level = 1 then s.opts.fullPeriod else s.oc.timer }
      eq := s.eq.push { kind := .opened, level := BitVec.ofNat 8 e.level, condition := .none, serial := e.serial,
                        argument := BitVec.ofNat 32 e.slot } } := by
  unfold State.openMarkerDurable State.setLevel
  rw [if_neg hk]
  by_cases h1 : e.level = 1
  · simp only [if_pos h1]
    rfl
  · simp only [if_neg h1]
    rfl

/-- Settles O37: the failure, and the written marker and VOID by the entry's purpose and the operation's phase. -/
theorem markerAndVoidWritesEnd : Obligations.MarkerAndVoidWritesEnd := by
  refine ⟨fun s slot f hrun h => ?_, fun s r rest hrun hr hlt hother => ?_⟩
  · refine claim_some hrun ?_
    simp only [State.markerWriteFails, State.portOutcome_failed h]
    rfl
  · intro passed
    refine ⟨fun h hp hf hphase hk => ?_, fun h hp hf => exec_voidWriteComplete_capture hrun hr hlt hother h hp hf,
      fun f below l h hp hf hphase hs => ?_⟩
    · rw [exec_markerWriteComplete hrun hr hlt hother h hp hf,
        State.markerDurable_openMarker (s := passed) hphase, State.openMarkerDurable_eq { r with state := .written } hk]
    · have hexec := exec_voidWriteComplete_marker hrun hr hlt hother h hp hf
      have hstack : passed.oc.stack = below ++ [l] := hs
      have hserial : passed.oc.innermost = l.serial := Controller.innermost_append hstack
      rw [State.markerFailed_openMarker (s := passed) hphase, failureCondition_eq] at hexec
      unfold State.openMarkerFailed at hexec
      rw [State.failOpen_eq _ hstack, hserial] at hexec
      intro stamp failed popped
      refine ⟨fun hne => hexec.trans ?_, fun hnil => hexec.trans ?_⟩
      · rw [if_neg (by simpa using hne), if_neg hne, if_neg hne]
        rfl
      · subst hnil
        rfl

end

/-! ## The log's death (R39, R46, R94, R107, R169) -/

/-- The stack a dead log leaves: an OPEN not yet durable and a rotation's level without its marker are popped. -/
def Controller.deathStack (oc : Controller) : List Level :=
  match oc.phase with
  | .openWait => oc.stack.dropLast
  | .openMarker => oc.stack.dropLast
  | .rotateLateMarker _ => oc.stack.dropLast
  | _ => oc.stack

/-- The serial of its innermost level. -/
def Controller.deathInnermost (oc : Controller) : Word32 := (oc.deathStack.getLast?.map Level.serial).getD 0

/-- The stamp it leaves. -/
def Controller.deathStamp (oc : Controller) : Word32 :=
  match oc.phase with
  | .none => oc.stamp
  | .openReclaim _ => oc.stamp
  | .commitWait => oc.stamp
  | .commitAnchor => oc.stamp
  | .rotateReclaim => oc.stamp
  | _ => oc.deathInnermost

/-- The event of the OPEN that dies with it. -/
def Controller.deathEvents (oc : Controller) : List EventRecord :=
  let failed (level : Nat) (serial : Word32) : EventRecord :=
    { kind := .openFailed, level := BitVec.ofNat 8 level, condition := .logDead, serial := serial, argument := 0 }
  match oc.phase with
  | .openWait => [failed oc.stack.length oc.innermost]
  | .openMarker => [failed oc.stack.length oc.innermost]
  | .openReclaim serial => [failed (oc.stack.length + 1) serial]
  | _ => []

/-- The controller an epoch operation leaves when the log dies in it. -/
def Controller.abandoned (oc : Controller) : Controller := { oc with stack := oc.deathStack, stamp := oc.deathStamp }

theorem Controller.abandoned_innermost (oc : Controller) : oc.abandoned.innermost = oc.deathInnermost :=
  Controller.innermost_getLast _

theorem Controller.abandoned_of_kept {oc : Controller} (h : oc.deathStack = oc.stack) (h' : oc.deathStamp = oc.stamp) :
    oc.abandoned = oc := by
  unfold Controller.abandoned
  rw [h, h']

/-- An operation that pops no level and gives the stamp back leaves the stack's own. -/
theorem Controller.abandoned_of_stamp {oc : Controller} (h : oc.deathStack = oc.stack)
    (h' : oc.deathStamp = oc.deathInnermost) : oc.abandoned = { oc with stamp := oc.innermost } := by
  unfold Controller.abandoned
  rw [h', Controller.innermost_getLast, Controller.deathInnermost, h]

theorem Controller.abandoned_of_pop {oc : Controller} (h : oc.deathStack = oc.stack.dropLast)
    (h' : oc.deathStamp = oc.deathInnermost) :
    oc.abandoned =
      { oc with stack := oc.stack.dropLast, stamp := { oc with stack := oc.stack.dropLast }.innermost } := by
  unfold Controller.abandoned
  rw [h', Controller.innermost_getLast, Controller.deathInnermost, h]

section
variable {s : State}

theorem State.abandonEpochOp_oc (s : State) : s.abandonEpochOp.oc = s.oc.abandoned := by
  unfold State.abandonEpochOp
  cases hp : s.oc.phase
  case openWait | openMarker | rotateLateMarker =>
    exact (Controller.abandoned_of_pop (by simp [Controller.deathStack, hp]) (by simp [Controller.deathStamp, hp])).symm
  case rotateWait | rotateMarker | rotateAnchor | rotateFirstAnchor =>
    exact (Controller.abandoned_of_stamp (by simp [Controller.deathStack, hp]) (by simp [Controller.deathStamp, hp])).symm
  case none | openReclaim | commitWait | commitAnchor | rotateReclaim =>
    exact (Controller.abandoned_of_kept (by simp [Controller.deathStack, hp]) (by simp [Controller.deathStamp, hp])).symm

theorem State.abandonEpochOp_eq (s : State) :
    s.abandonEpochOp.eq = s.oc.deathEvents.foldl EventQueue.push s.eq := by
  unfold State.abandonEpochOp Controller.deathEvents
  cases s.oc.phase <;> rfl

theorem State.abandonEpochOp_up (s : State) : s.abandonEpochOp.up = s.up := s.abandonEpochOp_onlyChanges .up (by decide)

theorem State.abandonEpochOp_hq (s : State) : s.abandonEpochOp.hq = s.hq := s.abandonEpochOp_onlyChanges .hq (by decide)

/-- The entry to FENCED for LOG_DEAD leaves the upstream port as its discard does. -/
theorem State.declareDead_up (s : State) (f : MemFailure) :
    (s.declareDead f).up = (s.discardHeld (·.isTrack)).up := by
  unfold State.declareDead
  rw [(State.dropLatch_onlyChanges _) .up (by decide)]
  unfold State.enterFence State.fenceDiscard
  rw [State.raise_up, State.discardHeld_up, State.discardHeld_up]
  unfold State.endForDeadLog
  simp only [State.stopTimer_up, State.stopTimer_hq, State.endOperation_up, State.endOperation_hq,
    State.abandonEpochOp_up, State.abandonEpochOp_hq]

/-- The levels it leaves. -/
theorem State.declareDead_stack (s : State) (f : MemFailure) :
    (s.declareDead f).oc.stack = s.oc.deathStack ∧ (s.declareDead f).oc.stamp = s.oc.deathStamp := by
  unfold State.declareDead State.enterFence State.fenceDiscard State.endForDeadLog
  simp only [State.dropLatch_oc, State.raise_oc, State.discardHeld_oc, State.stopTimer_oc, State.endOperation_oc,
    State.abandonEpochOp_oc]
  exact ⟨rfl, rfl⟩

/-- The events of the death: the OPEN's, FENCED, and the latched assertion's. -/
theorem State.declareDead_eq (s : State) (f : MemFailure) :
    (s.declareDead f).eq = (s.oc.deathEvents
      ++ [({ kind := .fenced, level := BitVec.ofNat 8 s.oc.deathStack.length, condition := failureCondition f,
             serial := s.oc.deathInnermost, argument := 3 } : EventRecord)]
      ++ if s.oc.latch then
          [({ kind := .faultDropped, level := BitVec.ofNat 8 s.oc.deathStack.length, condition := .none,
              serial := s.oc.deathInnermost, argument := 1 } : EventRecord)] else []).foldl EventQueue.push s.eq := by
  have hin := s.oc.abandoned_innermost
  unfold State.declareDead State.enterFence State.fenceDiscard State.endForDeadLog State.dropLatch
  simp only [State.raise_oc, State.discardHeld_oc, State.stopTimer_oc, State.endOperation_oc, State.abandonEpochOp_oc]
  rw [List.foldl_append, List.foldl_append, ← hin]
  cases hl : s.oc.latch
  · rw [if_neg (by simp [Controller.abandoned, hl]), if_neg (by simp)]
    simp only [State.raise_eq, State.discardHeld_eq, State.stopTimer_eq, State.endOperation_eq, State.abandonEpochOp_eq]
    rfl
  · rw [if_pos (by simp [Controller.abandoned, hl]), if_pos rfl]
    simp only [State.dropFault_eq, State.raise_eq, State.discardHeld_eq, State.stopTimer_eq, State.endOperation_eq,
      State.abandonEpochOp_eq]
    rfl

/-- What the death discards, as the obligation writes it. -/
theorem HoldEntry.heldTrack_eq (e : HoldEntry) : (decide (e.cls = .track) && !e.issued) = (e.held && e.isTrack) :=
  Bool.and_comm ..

/-- An entry a decision holds is of a class the table takes writes of (R12, R13). -/
theorem State.decideRequest_entry (s : State) (r : MemRequest) :
    ∀ e ∈ (s.decideRequest r).hq.entries,
      e ∈ s.hq.entries ∨ treatment s.oc.mode s.oc.op e.cls true = .take := by
  intro e he
  unfold State.decideRequest at he
  simp only at he
  split at he
  · exact .inl he
  · exact .inl he
  · rename_i ht
    split at he
    · rename_i hw
      split at he
      · rw [(s.hold_leaves r _).1] at he
        rcases List.mem_append.mp he with he | he
        · exact .inl he
        · refine .inr ?_
          rw [List.mem_singleton.mp he]
          exact hw ▸ ht
      · exact .inl he
    · exact .inl he

theorem finish_entry (b a : State) :
    ∀ e ∈ (finish b a).hq.entries, e ∈ a.hq.entries ∨ treatment a.oc.mode a.oc.op e.cls true = .take := by
  intro e he
  rw [finish_hq] at he
  rcases redecide_cases b a with h | ⟨_, r, -, h⟩ <;> rw [h] at he
  · exact .inl he
  · exact State.decideRequest_entry a r e he

theorem UpstreamPort.answer_error {up : UpstreamPort} (h : up.state ≠ .idle) :
    up.answer .error = up.answered false none := UpstreamPort.answer_busy h

/-- The step that declares the log dead, part by part. -/
theorem State.declareDead_finish (b s : State) (f : MemFailure) (heldTrack : HoldEntry → Bool)
    (hh : ∀ e, heldTrack e = (e.held && e.isTrack)) :
    let t := finish b (s.declareDead f)
    (∀ e ∈ t.hq.entries, e.cls = .track → e.issued = true)
    ∧ (s.up.unstalled → t.hq = { s.hq with entries := s.hq.entries.filter fun e => !heldTrack e })
    ∧ ((s.hq.entries.any fun e => heldTrack e && !e.acknowledged) = true → s.up.state = .writePending →
        t.up = s.up.answered false none)
    ∧ ((s.hq.entries.any fun e => heldTrack e && !e.acknowledged) = false → s.up.unstalled → t.up = s.up) := by
  intro t
  obtain rfl : heldTrack = fun e => e.held && e.isTrack := funext hh
  obtain ⟨-, ⟨hmode, -⟩, hhq⟩ := s.declareDead_leaves f
  have hup : (s.declareDead f).up =
      if (s.hq.entries.any fun e => (e.held && e.isTrack) && !e.acknowledged) then s.up.answer .error else s.up := by
    rw [State.declareDead_up, State.discardHeld_up, List.any_filter]
  have hunstalled : s.up.unstalled → (s.declareDead f).up.unstalled := by
    intro h
    rw [hup]
    split
    · exact UpstreamPort.answer_unstalled _ _
    · exact h
  refine ⟨fun e he hc => ?_, fun h => ?_, fun hs hw => ?_, fun hs h => ?_⟩
  · rcases finish_entry b _ e he with h | h
    · rw [hhq] at h
      have hkept := (List.mem_filter.mp h).2
      simpa [HoldEntry.held, HoldEntry.isTrack, hc] using hkept
    · rw [hmode, hc] at h
      cases h
  · exact (finish_hq_of_unstalled (hunstalled h)).trans hhq
  · have hbusy : s.up.state ≠ .idle := by simp [hw]
    rw [if_pos hs, UpstreamPort.answer_error hbusy] at hup
    exact (finish_up_of_unstalled (by intro _ _; simp [hup])).trans hup
  · rw [if_neg (by simp [hs])] at hup
    exact (finish_up_of_unstalled (hunstalled h)).trans hup

theorem Controller.attachCode_of {oc : Controller} {a : Attach} (h : oc.attach = some a) :
    oc.attachCode = if a.arg = .keep then 0 else 1 := by
  simp only [Controller.attachCode, h]
  cases a.arg <;> rfl

theorem State.anchorWriteFails_of {job : AnchorJob} {f : MemFailure} (h : s.endsWith (.lcAnchor job) (.failed f)) :
    s.anchorWriteFails f = some
      (if s.oc.detaching then s.portFreed.copyFailed job.copy
      else if s.oc.mode = .attaching then (s.portFreed.copyFailed job.copy).attachFails (failureCondition f)
      else (s.portFreed.copyFailed job.copy).declareDead f) := by
  simp only [State.anchorWriteFails, State.portOutcome_failed h]

/-- Settles O38: both failed writes declare the log dead over a state that differs in the port and the copies alone; the
attach and the accepted DETACH are the write's other two branches. -/
theorem logDeathFences : Obligations.LogDeathFences := by
  refine ⟨fun s f c hrun hdet hc => ?_, fun s f job a hrun hdet hm ha h => ?_, fun s f hrun hdet => ⟨?_, ?_⟩⟩
  · intro stack innermost openFailed opened stamp heldTrack strict fenced dropped
    obtain ⟨lc, hexec, htail, hhead, hlive, hdurable⟩ : ∃ lc : LogState,
        exec c s = .next (finish s (({ s.portFreed with lc := lc } : State).declareDead f))
        ∧ lc.tail = s.lc.tail ∧ lc.head = s.lc.head ∧ lc.live = s.lc.live ∧ lc.durable = s.lc.durable := by
      rcases hc with ⟨rfl, slot, h⟩ | ⟨rfl, hm, job, h⟩
      · refine ⟨s.lc, claim_some hrun ?_, rfl, rfl, rfl, rfl⟩
        simp only [State.voidWriteFails, State.portOutcome_failed h, hdet]
        rfl
      · refine ⟨(s.portFreed.copyFailed job.copy).lc, claim_some hrun ?_, ?_⟩
        · rw [State.anchorWriteFails_of h, if_neg (by simp [hdet]), if_neg hm]
          rfl
        · rw [State.copyFailed_lc, LogState.setCopy_tail, LogState.setCopy_head, LogState.setCopy_live,
            LogState.setCopy_durable]
          exact ⟨rfl, rfl, rfl, rfl⟩
    let u : State := { s.portFreed with lc := lc }
    obtain ⟨⟨hlc, hce, hdp, hre, hwin, hlog, hcf, hopts, hlink⟩, hoc, -⟩ := u.declareDead_leaves f
    obtain ⟨htrack, hhq, hstrict, hposted⟩ := State.declareDead_finish s u f heldTrack HoldEntry.heldTrack_eq
    obtain ⟨hstack, hstamp⟩ := u.declareDead_stack f
    refine ⟨_, hexec, ?_, ?_, htrack, hhq, hstrict, hposted, ?_, ?_, ?_⟩
    · have hcontexts := finish_contexts (b := s) (a := u.declareDead f)
      rw [hce] at hcontexts
      refine ⟨?_, ?_, ?_, hcontexts, ?_, ?_, ?_⟩
      · rw [finish_lc, hlc]
      · rw [finish_lc, hlc]
      · rw [finish_lc, hlc]
      · rw [finish_episode, hce]
        rfl
      · rw [finish_port, hdp]
      · rw [finish_re, hre]
    · rw [finish_oc]
      exact hoc
    · rw [finish_lc, hlc, finish_windows, finish_log, finish_cf, finish_opts, finish_link]
      exact ⟨htail, hhead, hlive, hdurable, hwin, hlog, hcf, hopts, hlink⟩
    · rw [finish_oc]
      exact ⟨hstack, hstamp⟩
    · rw [finish_eq, State.declareDead_eq, failureCondition_eq]
      rfl
  · refine claim_some hrun ((State.anchorWriteFails_of h).trans ?_)
    rw [if_neg (by simp [hdet]), if_pos hm, State.attachFails, State.copyFailed_oc, Controller.attachCode_of ha,
      failureCondition_eq]
    rfl
  · exact fun slot h => claim_some hrun (by simp only [State.voidWriteFails, State.portOutcome_failed h, hdet]; rfl)
  · intro job h
    refine claim_some hrun ((State.anchorWriteFails_of h).trans ?_)
    rw [if_pos hdet]
    unfold State.copyFailed
    cases job.copy <;> rfl

end

end Sys2Proof.Machine

/-! SUPPORT. An anchor written: the ring it sets, and what each requester does then. -/

namespace Sys2Proof.Machine

/-! ## What the requesters do (R51, R54, R56, R128, R132, R140, R141, R146) -/

section
variable {s : State}

/-- The occasions that give the tail as head and leave the ring so. -/
def AnchorOccasion.empties (o : AnchorOccasion) : Prop :=
  o ∈ [.commit, .openReclaim, .rotateReclaim, .rollback, .discard, .recovery]

theorem AnchorOccasion.empties_atHead {o : AnchorOccasion} (h : o.empties) : o.atHead = true ∧ o ≠ .rotateFirst := by
  unfold AnchorOccasion.empties at h
  simp only [List.mem_cons, List.not_mem_nil, or_false] at h
  rcases h with rfl | rfl | rfl | rfl | rfl | rfl <;> exact ⟨rfl, nofun⟩

theorem State.committed_eq {l : Level} (hs : s.oc.stack = [l]) :
    s.committed = { s with
      oc := { s.oc with
        stack := [], stamp := 0, bar := none, timer := none, rotationPending := false, op := .idle, phase := .none }
      cf := []
      eq := s.eq.push { kind := .committed, level := 1, condition := .none, serial := l.serial, argument := l.captures }
      hq := { s.hq with entries := s.hq.entries.map fun e => e.restamp l.serial 0 } } := by
  have hl : s.oc.level 1 = some l := by simp [Controller.level, hs]
  simp only [State.committed, hl]
  rfl

theorem State.rotated_eq {x : Successor} (hx : s.oc.successor = some x) (slot : Nat) :
    s.rotated slot = { s with
      oc := { s.oc with
        stack := [{ serial := x.serial, start := some slot, durable := true, broken := false, captures := 0 }]
        successor := none, bar := none, timer := s.opts.fullPeriod, rotationPending := false, op := .idle, phase := .none }
      cf := []
      eq := s.eq.push { kind := .rotated, level := 1, condition := .none, serial := x.serial,
                        argument := rotatedArgument x.origin }
      hq := { s.hq with entries := s.hq.entries.map fun e => e.restamp (s.oc.serialAt 1) 0 } } := by
  simp only [State.rotated, hx]
  rfl

theorem rotatedArgument_eq (o : RotationOrigin) : rotatedArgument o = if o = .command then 0 else 1 := by
  cases o <;> rfl

theorem failedRotationArgument_eq (o : RotationOrigin) : failedRotationArgument o = if o = .command then 1 else 2 := by
  cases o <;> rfl

theorem Controller.serialAt_one {oc : Controller} {l : Level} (hs : oc.stack = [l]) : oc.serialAt 1 = l.serial := by
  simp [Controller.serialAt, Controller.level, hs]

/-- From a freeze the part is ONLINE, and the timer runs with levels on the stack (R58, R127). -/
theorem State.leaveFreeze_eq (s : State) :
    s.leaveFreeze = { s with oc := { s.oc with
      mode := if s.re.fromFreeze then .online else s.oc.mode
      fence := if s.re.fromFreeze then .none else s.oc.fence
      timer := if s.re.fromFreeze = true ∧ s.oc.stack ≠ [] then s.opts.fullPeriod else s.oc.timer } } := by
  unfold State.leaveFreeze
  by_cases hf : s.re.fromFreeze = true
  · by_cases hs : s.oc.stack = []
    · rw [if_pos hf, if_pos hf, if_pos hf, if_pos (by simp [hs]), if_neg (fun h => h.2 hs)]
    · rw [if_pos hf, if_pos hf, if_pos hf, if_neg (by simpa using hs), if_pos ⟨hf, hs⟩]
      rfl
  · rw [if_neg hf, if_neg hf, if_neg hf, if_neg (fun h => hf h.1)]

/-- A rollback's end: the operation and the stage idle, and the part left by its freeze. -/
theorem State.rolledBack_eq (s : State) :
    s.rolledBack = { s with
      oc := { s.oc with
        op := .idle, phase := .none
        mode := if s.re.fromFreeze then .online else s.oc.mode
        fence := if s.re.fromFreeze then .none else s.oc.fence
        timer := if s.re.fromFreeze = true ∧ s.oc.stack ≠ [] then s.opts.fullPeriod else s.oc.timer }
      re := { s.re with stage := .idle }
      eq := s.eq.push { kind := .rolledBack, level := BitVec.ofNat 8 s.re.target, condition := .none,
                        serial := s.re.targetSerial, argument := s.re.restored } } := by
  unfold State.rolledBack
  rw [State.leaveFreeze_eq]
  rfl

/-- Apart from the first anchor of a rotation, a requester leaves the log but for its writes, and the contexts. -/
theorem State.anchorDone_lc {o : AnchorOccasion} (h : o ≠ .rotateFirst) :
    (s.anchorDone o).lc = { s.lc with writes := (s.anchorDone o).lc.writes } ∧ (s.anchorDone o).ce = s.ce := by
  cases o
  case rotateFirst => exact absurd rfl h
  case commit =>
    simp only [State.anchorDone, State.committed]
    split <;> exact ⟨rfl, rfl⟩
  case rotateMarker =>
    simp only [State.anchorDone, State.rotated]
    split <;> exact ⟨rfl, rfl⟩
  case rollback =>
    simp only [State.anchorDone, State.rolledBack_eq]
    exact ⟨trivial, trivial⟩
  all_goals exact ⟨rfl, rfl⟩

end

/-! ## The ring an anchor sets (R36) -/

theorem ringDistance_next {n slot : Nat} (h1 : 1 < n) (hs : slot < n) : ringDistance n slot ((slot + 1) % n) = 1 := by
  rw [ringDistance_eq hs (Nat.mod_lt _ (by omega))]
  by_cases hw : slot + 1 = n
  · rw [hw, Nat.mod_self]
    split <;> omega
  · rw [Nat.mod_eq_of_lt (by omega)]
    split <;> omega

section
variable {s : State} {job : AnchorJob}

theorem State.anchored_at_head (h : job.occasion.atHead = true) :
    (s.anchored job).lc.live = 0 ∧ (s.anchored job).lc.durable = 0 :=
  ⟨if_pos h, if_pos h⟩

/-- The rotation's marker alone is live after its anchor, and durable. -/
theorem State.anchored_marker {slot : Nat} {w : Word32} (ho : job.occasion = .rotateMarker slot w)
    (h1 : 1 < s.log.slots) (hs : slot < s.log.slots) (ht : job.anchor.tail.toNat = slot)
    (hh : s.lc.head = (slot + 1) % s.log.slots) (hd : (s.lc.tail + s.lc.durable) % s.log.slots = s.lc.head) :
    (s.anchored job).lc.live = 1 ∧ (s.anchored job).lc.durable = 1 := by
  have hnot : job.occasion.atHead = false := by rw [ho]; rfl
  have hmark : s.durableSlot = (slot + 1) % s.log.slots := by
    rw [← hh, ← hd]
    rfl
  have hlive : (s.anchored job).lc.live = ringDistance s.log.slots slot ((slot + 1) % s.log.slots) := by
    rw [← hh, ← ht]
    exact (if_neg (by simp [hnot])).trans rfl
  have hdurable : (s.anchored job).lc.durable =
      min (ringDistance s.log.slots slot ((slot + 1) % s.log.slots))
        (ringDistance s.log.slots slot ((slot + 1) % s.log.slots)) := by
    have hdef : (s.anchored job).lc.durable = min (ringDistance s.log.slots job.anchor.tail.toNat s.durableSlot)
        (ringDistance s.log.slots job.anchor.tail.toNat s.lc.head) := if_neg (by simp [hnot])
    rw [hdef, hmark, hh, ht]
  rw [hlive, hdurable, ringDistance_next h1 hs]
  exact ⟨rfl, rfl⟩

end

/-- Settles O39: the ring as the anchor sets it, then each requester's own equation. -/
theorem anchorWriteSetsRing : Obligations.AnchorWriteSetsRing := by
  intro s job hrun h
  let u : State := s.portFreed.anchored job
  let v : State := u.anchorDone job.occasion
  have hexec : exec .anchorWriteComplete s = .next (finish s v) := by
    refine claim_some hrun ?_
    simp only [State.anchorWritten, State.portOutcome_okay h]
    rfl
  obtain ⟨hsession, htail, hsequence, hdp, hA, hB⟩ := u.anchorDone_ring job.occasion
  have hhq (hu : v.up = s.up) : s.up.unstalled → (finish s v).hq = v.hq := fun h => finish_hq_of_unstalled (hu ▸ h)
  refine ⟨_, hexec, ?_, ?_, ?_, ?_, ?_, ?_, ?_, ?_, ?_, ?_, ?_, ?_, ?_⟩
  · rw [finish_lc, finish_port]
    exact ⟨hsession, htail, hsequence, congrArg DownstreamPort.port hdp⟩
  · intro hc
    rw [finish_lc, hA, hB]
    refine ⟨?_, ?_⟩ <;> simp only [u, State.anchored, LogState.anchored, hc] <;> rfl
  · intro hc
    rw [finish_lc, hA, hB]
    refine ⟨?_, ?_⟩ <;> simp only [u, State.anchored, LogState.anchored, hc] <;> rfl
  · intro hm
    obtain ⟨hhead, hne⟩ := AnchorOccasion.empties_atHead hm
    obtain ⟨hlive, hdurable⟩ := State.anchored_at_head (s := s.portFreed) hhead
    rw [finish_lc, (State.anchorDone_lc hne).1]
    exact ⟨hlive, hdurable, LogState.setCopy_head ..⟩
  · intro hne
    obtain ⟨hlc, hce⟩ := State.anchorDone_lc (s := u) hne
    rw [finish_lc, finish_episode, hlc, hce]
    exact ⟨congrArg (· || _) (LogState.setCopy_armed ..), rfl⟩
  · intro l ho hs
    have hv : v = u.committed := congrArg u.anchorDone ho
    have hv' := hv.trans (State.committed_eq (s := u) hs)
    rw [finish_oc, finish_cf, finish_eq]
    refine ⟨hv' ▸ rfl, hv' ▸ rfl, hv' ▸ rfl, fun hup => ?_⟩
    exact (hhq (hv' ▸ rfl) hup).trans (hv' ▸ rfl)
  · intro slot w x ho hx
    have hv : v = u.rotated slot := congrArg u.anchorDone ho
    have hv' := hv.trans (State.rotated_eq (s := u) hx slot)
    rw [finish_oc, finish_cf, finish_eq, finish_lc, ← rotatedArgument_eq]
    refine ⟨hv' ▸ rfl, hv' ▸ rfl, hv' ▸ rfl, fun old hs hup => ?_, fun h1 hslot ht hh hd => ?_⟩
    · rw [← Controller.serialAt_one hs]
      exact (hhq (hv' ▸ rfl) hup).trans (hv' ▸ rfl)
    · obtain ⟨hlive, hdurable⟩ := State.anchored_marker (s := s.portFreed) ho h1 hslot ht hh hd
      rw [hv']
      exact ⟨hlive, hdurable⟩
  · intro hm
    rw [finish_oc, finish_eq]
    simp only [List.mem_cons, List.not_mem_nil, or_false] at hm
    rcases hm with ho | ho <;> simp only [v, ho] <;> exact ⟨rfl, rfl⟩
  · intro session ho
    rw [finish_oc, finish_eq, finish_lc]
    simp only [v, ho]
    refine ⟨rfl, rfl, ?_⟩
    exact congrArg (· ++ _) (LogState.setCopy_writes ..)
  · intro ho
    rw [finish_oc, finish_eq, finish_re]
    simp only [v, ho]
    exact ⟨rfl, rfl, rfl⟩
  · intro hm
    rw [finish_oc, finish_eq]
    simp only [List.mem_cons, List.not_mem_nil, or_false] at hm
    rcases hm with ho | ho <;> simp only [v, ho] <;> exact ⟨rfl, rfl⟩
  · intro ho
    rw [finish_oc, finish_eq, finish_re]
    have hv : v = u.rolledBack := congrArg u.anchorDone ho
    rw [hv, State.rolledBack_eq]
    exact ⟨rfl, rfl, rfl⟩
  · intro ho
    rw [finish_oc, finish_eq, finish_re]
    simp only [v, ho]
    exact ⟨rfl, rfl, rfl⟩

end Sys2Proof.Machine

/-! SUPPORT. The markers of a rotation, and its first anchor. -/

namespace Sys2Proof.Machine

section
variable {s : State}

/-- The rotation given up: its successor goes, and level 1 stays (R56). -/
theorem State.abandonRotation_eq {x : Successor} (hx : s.oc.successor = some x) (c : Condition) :
    s.abandonRotation c = { s with
      oc := { s.oc with stamp := s.oc.innermost, bar := none, successor := none, op := .idle, phase := .none }
      hq := { s.hq with entries := s.hq.entries.map fun e => e.restamp x.serial s.oc.innermost }
      eq := s.eq.push { kind := .openFailed, level := 1, condition := c, serial := x.serial,
                        argument := failedRotationArgument x.origin } } := by
  simp only [State.abandonRotation, hx]
  rfl

theorem State.lateMarkerDurable_eq (s : State) (origin : RotationOrigin) (e : Reservation) :
    s.lateMarkerDurable origin e = { s with
      oc := { s.oc with
        stack := s.oc.stack.modify 0 fun l => { l with durable := true }
        timer := s.opts.fullPeriod, rotationPending := false, op := .idle, phase := .none }
      eq := s.eq.push { kind := .rotated, level := 1, condition := .none, serial := e.serial,
                        argument := if origin = .command then 0 else 1 } } := by
  rw [← rotatedArgument_eq]
  rfl

/-- Level 1 popped, its writes restamped, and the anchor asked for that frees the slot (R57). -/
theorem State.lateMarkerFailed_eq {l : Level} (hs : s.oc.stack = [l]) (origin : RotationOrigin) (c : Condition) :
    s.lateMarkerFailed origin c = { s with
      oc := { s.oc with stack := [], stamp := 0, timer := none, rotationPending := false, phase := .rotateReclaim }
      lc := { s.lc with writes := s.lc.writes ++ [.anchor .rotateReclaim] }
      hq := { s.hq with entries := s.hq.entries.map fun e => e.restamp l.serial 0 }
      eq := s.eq.push { kind := .openFailed, level := 1, condition := c, serial := l.serial,
                        argument := failedRotationArgument origin } } := by
  have hpop : s.popInnermost = { s with oc := { s.oc with stack := [], stamp := 0 } } := by
    refine State.ext rfl rfl rfl rfl rfl rfl rfl rfl ?_ rfl rfl rfl rfl rfl rfl
    rw [State.popInnermost_oc, hs]
    rfl
  unfold State.lateMarkerFailed
  rw [hpop, Controller.innermost_append (base := []) hs]
  rfl

/-- The first anchor of the no-slot form, part by part. -/
theorem State.rotatedFirst_parts {x : Successor} (hx : s.oc.successor = some x) :
    (s.rotatedFirst.oc = { s.oc with
      stack := [{ serial := x.serial, start := some s.lc.head, durable := false, broken := false, captures := 0 }]
      successor := none, bar := none, phase := .rotateLateMarker x.origin })
    ∧ s.rotatedFirst.cf = [] ∧ s.rotatedFirst.ce = s.ce ∧ s.rotatedFirst.up = s.up
    ∧ s.rotatedFirst.hq = { s.hq with entries := s.hq.entries.map fun e => e.restamp (s.oc.serialAt 1) 0 }
    ∧ s.rotatedFirst.lc.live = s.lc.live + 1 ∧ s.rotatedFirst.lc.durable = s.lc.durable
    ∧ s.rotatedFirst.lc.head = (s.lc.head + 1) % s.log.slots
    ∧ s.rotatedFirst.lc.writes = s.lc.writes ++ [.openHeader s.lc.head] := by
  simp only [State.rotatedFirst, hx]
  rw [State.reserve_eq]
  exact ⟨rfl, rfl, rfl, rfl, rfl, rfl, rfl, rfl, rfl⟩

end

/-- Settles O40: the marker written or voided in each phase of a rotation, and the first anchor of the no-slot form. -/
theorem rotationMarkersEnd : Obligations.RotationMarkersEnd := by
  intro s x origin hrun failedArgument failed
  have harg (o : RotationOrigin) : failedArgument o = failedRotationArgument o := (failedRotationArgument_eq o).symm
  refine ⟨fun r rest hr hlt hother hp => ?_, fun job old h ho hx hs => ?_⟩
  · intro passed
    refine ⟨fun h hf hphase => ?_, fun f h hf hphase hx => ?_, fun h hf hphase => ?_, fun f l h hf hphase hs => ?_⟩
    · rw [exec_markerWriteComplete hrun hr hlt hother h hp hf, State.markerDurable_rotateMarker (s := passed) hphase]
      rfl
    · rw [exec_voidWriteComplete_marker hrun hr hlt hother h hp hf, State.markerFailed_rotateMarker (s := passed) hphase,
        State.abandonRotation_eq (s := passed) hx, failureCondition_eq, ← harg]
    · rw [exec_markerWriteComplete hrun hr hlt hother h hp hf, State.markerDurable_lateMarker (s := passed) hphase,
        State.lateMarkerDurable_eq passed]
    · rw [exec_voidWriteComplete_marker hrun hr hlt hother h hp hf, State.markerFailed_lateMarker (s := passed) hphase,
        State.lateMarkerFailed_eq (s := passed) hs, failureCondition_eq, ← harg]
  · let u : State := s.portFreed.anchored job
    have hexec : exec .anchorWriteComplete s = .next (finish s u.rotatedFirst) := by
      refine claim_some hrun ?_
      simp only [State.anchorWritten, State.portOutcome_okay h, ho]
      rfl
    obtain ⟨hoc, hcf, hce, hup, hhq, hlive, hdurable, hhead, hwrites⟩ := State.rotatedFirst_parts (s := u) hx
    obtain ⟨hlive0, hdurable0⟩ := State.anchored_at_head (s := s.portFreed) (job := job) (by rw [ho]; rfl)
    have hhead0 : u.lc.head = s.lc.head := LogState.setCopy_head ..
    rw [hhead0] at hoc hhead hwrites
    refine ⟨_, hexec, ?_⟩
    rw [finish_oc, finish_cf, finish_lc, finish_episode, hoc, hcf, hce, hlive, hdurable, hhead, hwrites]
    refine ⟨rfl, rfl, ?_, hdurable0, rfl, fun hn => ?_, congrArg (· ++ _) (LogState.setCopy_writes ..), fun h => ?_⟩
    · exact congrArg (· + 1) hlive0
    · have hepisode : u.ce.episode = (s.ce.episode && !decide (u.lc.live < s.log.slots)) := rfl
      rw [hepisode, show u.lc.live = 0 from hlive0]
      simp [Nat.pos_of_ne_zero hn]
    · rw [← Controller.serialAt_one hs]
      exact (finish_hq_of_unstalled (hup ▸ h)).trans hhq

end Sys2Proof.Machine

/-! SUPPORT. ATTACH and its drain, the attach reads, and DETACH. -/

namespace Sys2Proof.Machine

section
variable {s : State}

/-! ## ATTACH (R11, R111, R137) -/

/-- The kind of attach its argument byte asks for. -/
def attachKind (arg : Byte) : AttachArg := if arg = 0x01 then .format else .keep

/-- The command an argument byte of ATTACH spells. -/
theorem exec_attach (arg : Byte) (s : State) :
    exec (if arg = 0x01 then .attachFormat else .attachKeep arg) s = command (State.attach arg) s := by
  by_cases h : arg = 0x01
  · rw [if_pos h, h]
    rfl
  · rw [if_neg h]
    rfl

theorem attachArg_of {arg : Byte} (h : arg = 0x00 ∨ arg = 0x01) : attachArg arg = some (attachKind arg) := by
  rcases h with rfl | rfl <;> rfl

theorem attachArg_none {arg : Byte} (h : arg ≠ 0x00) (h' : arg ≠ 0x01) : attachArg arg = none := by
  unfold attachArg
  rw [if_neg h, if_neg h']

theorem State.attach_of_mode {arg : Byte} (hm : s.oc.mode ≠ .offline) : s.attach arg = .refuse .state := by
  have hfail : firstFailure (s.attachChecks arg) = some .state := firstFailure_cons_of_fails (by simp [hm])
  simp only [State.attach, hfail]

theorem State.attach_of_arg {arg : Byte} (hm : s.oc.mode = .offline) (h : arg ≠ 0x00) (h' : arg ≠ 0x01) :
    s.attach arg = .refuse .arg := by
  have hfail : firstFailure (s.attachChecks arg) = some .arg := by
    unfold State.attachChecks
    rw [firstFailure_cons_of_passes (by simp [hm]), firstFailure_cons_of_fails (by simp [attachArg_none h h'])]
  simp only [State.attach, hfail]

theorem State.attach_of_no_log {arg : Byte} (hm : s.oc.mode = .offline) (h : arg = 0x00 ∨ arg = 0x01)
    (hn : s.log.slots = 0) : s.attach arg = .refuse .state := by
  have hfail : firstFailure (s.attachChecks arg) = some .state := by
    unfold State.attachChecks
    rw [firstFailure_cons_of_passes (by simp [hm]), firstFailure_cons_of_passes (by simp [attachArg_of h]),
      firstFailure_cons_of_fails (by simp [hn])]
  simp only [State.attach, hfail]

theorem State.attach_of_accepted {arg : Byte} (hm : s.oc.mode = .offline) (h : arg = 0x00 ∨ arg = 0x01)
    (hn : s.log.slots ≠ 0) : s.attach arg = .done .accepted [] (s.beginAttach (attachKind arg)) := by
  have hpass : firstFailure (s.attachChecks arg) = none := by
    unfold State.attachChecks
    rw [firstFailure_cons_of_passes (by simp [hm]), firstFailure_cons_of_passes (by simp [attachArg_of h]),
      firstFailure_cons_of_passes (by simp [hn])]
    rfl
  simp only [State.attach, hpass, attachArg_of h]

theorem raiseDropped_eq (ls : List HoldEntry) : ∀ s : State,
    raiseDropped ls s = { s with eq := (ls.filter (·.acknowledged)).foldl (fun q e => q.push
      { kind := .writeLost, level := 0, condition := .none, serial := 0, argument := e.addr }) s.eq } := by
  induction ls with
  | nil => exact fun _ => rfl
  | cons e rest ih =>
    intro s
    rw [raiseDropped, ih]
    cases ha : e.acknowledged
    · rw [List.filter_cons_of_neg (by simp [ha])]
      rfl
    · rw [List.filter_cons_of_pos (by simp [ha])]
      rfl

/-- The controller once ATTACH is accepted. -/
def State.attaching (s : State) (kind : AttachArg) : Controller :=
  { s.oc with mode := .attaching, attach := some { phase := .draining, arg := kind } }

/-- Everything the acceptance of ATTACH does. -/
theorem State.beginAttach_eq (s : State) (kind : AttachArg) :
    s.beginAttach kind = { s.discardHeld (fun e => decide (e.cls = .log)) with
      oc := s.attaching kind, lc := State.reset.lc
      eq := (s.hq.entries.filter fun e => !e.issued && decide (e.cls = .log) && e.acknowledged).foldl (fun q e => q.push
        { kind := .writeLost, level := 0, condition := .none, serial := 0, argument := e.addr }) s.eq } := by
  have hdiscard : ({ s with oc := s.attaching kind, lc := LogState.reset } : State).discardHeld (·.isLog) =
      { s.discardHeld (·.isLog) with oc := s.attaching kind, lc := LogState.reset } := by
    unfold State.discardHeld
    dsimp only
    split <;> rfl
  have hfilter : (s.hq.entries.filter fun e => e.held && e.isLog).filter (·.acknowledged) =
      s.hq.entries.filter fun e => !e.issued && decide (e.cls = .log) && e.acknowledged := by
    rw [List.filter_filter]
    exact List.filter_congr fun e _ => Bool.and_comm ..
  unfold State.beginAttach
  rw [raiseDropped_eq, hfilter]
  dsimp only
  rw [show ({ s with
      oc := { s.oc with mode := .attaching, attach := some { phase := .draining, arg := kind } }
      lc := LogState.reset } : State).discardHeld (·.isLog) = _ from hdiscard]
  dsimp only
  rw [State.discardHeld_eq]
  rfl

theorem exec_attach_accepted {arg : Byte} (hl : s.linked) (hm : s.oc.mode = .offline) (h : arg = 0x00 ∨ arg = 0x01)
    (hn : s.log.slots ≠ 0) :
    exec (if arg = 0x01 then .attachFormat else .attachKeep arg) s =
      .next { finish s (s.beginAttach (attachKind arg)) with link := s.link.showing .accepted [] } := by
  rw [exec_attach]
  refine command_showing hl (State.attach_of_accepted hm h hn) ?_
  rw [State.beginAttach_eq]
  exact State.discardHeld_link ..

/-- A discard that finds nothing to remove. -/
theorem State.discardHeld_of_none {p : HoldEntry → Bool} (h : ∀ e ∈ s.hq.entries, p e = true → e.issued = true) :
    s.discardHeld p = s := by
  have hgone : s.hq.entries.filter (fun e => e.held && p e) = [] := by
    refine List.filter_eq_nil_iff.mpr fun e he hp => ?_
    simp only [HoldEntry.held, Bool.and_eq_true, Bool.not_eq_true'] at hp
    exact Bool.false_ne_true (hp.1.symm.trans (h e he hp.2))
  have hkept : s.hq.entries.filter (fun e => !(e.held && p e)) = s.hq.entries := by
    refine List.filter_eq_self.mpr fun e he => ?_
    rw [Bool.eq_false_of_not_eq_true (List.filter_eq_nil_iff.mp hgone e he)]
    rfl
  unfold State.discardHeld
  rw [hgone, hkept]
  rfl

/-- One entry picked out of a list. -/
theorem filter_of_one {α : Type} {p : α → Bool} {pre post : List α} {e : α} (he : p e = true)
    (hother : ∀ x ∈ pre ++ post, p x = false) :
    (pre ++ e :: post).filter p = [e] ∧ (pre ++ e :: post).filter (fun x => !p x) = pre ++ post := by
  have hpre (x : α) (hx : x ∈ pre) := hother x (List.mem_append_left _ hx)
  have hpost (x : α) (hx : x ∈ post) := hother x (List.mem_append_right _ hx)
  constructor
  · rw [List.filter_append, List.filter_cons_of_pos he, List.filter_eq_nil_iff.mpr fun x hx => by simp [hpre x hx],
      List.filter_eq_nil_iff.mpr fun x hx => by simp [hpost x hx]]
    rfl
  · rw [List.filter_append, List.filter_cons_of_neg (by simp [he]), List.filter_eq_self.mpr fun x hx => by simp [hpre x hx],
      List.filter_eq_self.mpr fun x hx => by simp [hpost x hx]]

/-- A discard that finds one entry: it goes, and the port answers ERROR where it is not acknowledged. -/
theorem State.discardHeld_of_one {p : HoldEntry → Bool} {pre post : List HoldEntry} {e : HoldEntry}
    (hq : s.hq.entries = pre ++ e :: post) (hp : p e = true) (hi : e.issued = false)
    (hother : ∀ x ∈ pre ++ post, p x = true → x.issued = true) :
    s.discardHeld p =
      if e.acknowledged then { s with hq := { s.hq with entries := pre ++ post } }
      else ({ s with hq := { s.hq with entries := pre ++ post } } : State).answer .error := by
  obtain ⟨hgone, hkept⟩ := filter_of_one (p := fun x => x.held && p x) (pre := pre) (post := post) (e := e)
    (by simp [HoldEntry.held, hi, hp]) fun x hx => by
      rw [Bool.and_eq_false_iff, HoldEntry.held, Bool.not_eq_false', or_comm, ← Bool.not_eq_true]
      exact Decidable.not_or_of_imp (hother x hx)
  unfold State.discardHeld
  rw [hq, hgone, hkept]
  dsimp only
  rw [List.any_cons, List.any_nil, Bool.or_false]
  cases e.acknowledged <;> rfl

theorem HoldQueue.holdsTrack_iff {q : HoldQueue} : q.holdsTrack = false ↔ ∀ e ∈ q.entries, e.cls ≠ .track := by
  simp [HoldQueue.holdsTrack, HoldEntry.isTrack]

theorem State.drainEnds_of {a : Attach} (hm : s.oc.mode = .attaching) (ha : s.oc.attach = some a)
    (hp : a.phase = .draining) (hq : ∀ e ∈ s.hq.entries, e.cls ≠ .track) :
    s.drainEnds = some { s with
      oc := { s.oc with attach := some { a with phase := .reading } }, lc := { s.lc with attachRead := .anchorA } } := by
  have hq' := HoldQueue.holdsTrack_iff.mpr hq
  simp only [State.drainEnds, ha, hm, hp, hq', State.setAttachPhase]
  rfl

theorem State.drainEnds_none (h : s.oc.mode ≠ .attaching ∨ (∀ a, s.oc.attach = some a → a.phase ≠ .draining)
    ∨ ∃ e ∈ s.hq.entries, e.cls = .track) : s.drainEnds = none := by
  refine Option.eq_none_iff_forall_ne_some.mpr fun t ht => ?_
  obtain ⟨a, ha, hm, hp, hq, -⟩ := State.drainEnds_cases ht
  rcases h with h | h | ⟨e, he, hc⟩
  · exact h hm
  · exact h a ha hp
  · exact HoldQueue.holdsTrack_iff.mp hq e he hc

/-- Settles O41: the checks in their order, the acceptance with none, any, or one write to the log held, and the drain.
-/
theorem attachAcceptedAndDrained : Obligations.AttachAcceptedAndDrained := by
  intro s arg c kind attaching
  refine ⟨fun hl hm => ?_, fun hl hm h h' => ?_, fun hl hm h hn => ?_, fun hl hm h hn hnone => ?_,
    fun hl hm h hn => ?_, fun pre e post hl hm h hn hq hc hi hother => ?_, fun a hrun hm ha hp hq => ?_,
    fun hrun h => ?_⟩
  · exact (exec_attach arg s).trans (command_refuse hl (State.attach_of_mode hm))
  · exact (exec_attach arg s).trans (command_refuse hl (State.attach_of_arg hm h h'))
  · exact (exec_attach arg s).trans (command_refuse hl (State.attach_of_no_log hm h hn))
  · refine (exec_attach_accepted hl hm h hn).trans ?_
    rw [State.beginAttach_eq, State.discardHeld_of_none (by simpa using hnone), List.filter_eq_nil_iff.mpr]
    · rfl
    · intro e he hp
      simp only [Bool.and_eq_true, Bool.not_eq_true', decide_eq_true_eq] at hp
      exact Bool.false_ne_true (hp.1.1.symm.trans (hnone e he hp.1.2))
  · refine (exec_attach_accepted hl hm h hn).trans ?_
    rw [State.beginAttach_eq]
    rfl
  · have hexec := exec_attach_accepted hl hm h hn
    have hdiscard := State.discardHeld_of_one (p := fun x => decide (x.cls = .log)) hq (by simp [hc]) hi
      (by simpa using hother)
    have hlost : (s.hq.entries.filter fun e => !e.issued && decide (e.cls = .log) && e.acknowledged) =
        if e.acknowledged then [e] else [] := by
      have hnone (x : HoldEntry) (hx : x ∈ pre ++ post) : (!x.issued && decide (x.cls = .log) && x.acknowledged) = false := by
        cases hxi : x.issued
        · have hne : x.cls ≠ .log := fun hc => Bool.false_ne_true (hxi.symm.trans (hother x hx hc))
          simp [hne]
        · rfl
      rw [hq, List.filter_append, List.filter_cons,
        List.filter_eq_nil_iff.mpr fun x hx => by simp [hnone x (List.mem_append_left _ hx)],
        List.filter_eq_nil_iff.mpr fun x hx => by simp [hnone x (List.mem_append_right _ hx)]]
      simp [hi, hc]
    rw [State.beginAttach_eq, hdiscard, hlost] at hexec
    refine ⟨fun ha => hexec.trans ?_, fun ha hup => hexec.trans ?_⟩
    · rw [if_pos ha, if_pos ha]
      rfl
    · rw [if_neg (by simp [ha]), if_neg (by simp [ha]), Response.error, State.answer_of_busy (by simp [hup])]
      rfl
  · exact claim_some hrun (State.drainEnds_of hm ha hp hq)
  · exact claim_none (State.drainEnds_none h)

/-! ## The attach reads (R22, R33, R138 to R141) -/

theorem State.attachFails_eq {a : Attach} (ha : s.oc.attach = some a) (c : Condition) :
    s.attachFails c = { s with
      lc := State.reset.lc, oc := { s.oc with attach := none, mode := .offline }
      eq := s.eq.push { kind := .attachFailed, level := 0, condition := c, serial := 0,
                        argument := if a.arg = .keep then 0 else 1 } } := by
  unfold State.attachFails
  rw [Controller.attachCode_of ha]
  rfl

theorem State.setAttachPhase_of {a : Attach} (ha : s.oc.attach = some a) (p : AttachPhase) :
    s.setAttachPhase p = { s with oc := { s.oc with attach := some { a with phase := p } } } := by
  unfold State.setAttachPhase
  rw [ha]
  rfl

theorem State.tailTest_passes {header payload : BlockData} {k : RecordKind}
    (h : ringTest s.lc s.log.slots s.lc.tail header payload = .passes k) :
    s.tailTest header payload = { s with
      lc := { s.lc with attachRead := .none }, oc := { s.oc with mode := .suspect, attach := none }
      eq := s.eq.push { kind := .attached, level := 0, condition := .none, serial := s.lc.session, argument := 1 } } := by
  simp only [State.tailTest, h]
  rfl

theorem State.tailTest_fails {header payload : BlockData} {c : Condition} {a : Attach} (ha : s.oc.attach = some a)
    (h : ringTest s.lc s.log.slots s.lc.tail header payload = .fails c) :
    s.tailTest header payload = { s with
      oc := { s.oc with attach := some { a with phase := .writing } }
      lc := { s.lc with attachRead := .none, writes := s.lc.writes ++ [.anchor .attachKeep] } } := by
  simp only [State.tailTest, h]
  rw [State.setAttachPhase_of (s := { s with lc := { s.lc with attachRead := .none } }) ha]
  rfl

theorem State.anchorsRead_keep {at_ : Attach} (ha : s.oc.attach = some at_) (hk : at_.arg = .keep) (a b : Option Anchor) :
    (selectAnchor a b = none → s.anchorsRead a b = s.attachFails .noAnchor)
    ∧ ∀ x, selectAnchor a b = some x → s.anchorsRead a b = { s with lc := s.lc.takeAnchor x } := by
  refine ⟨fun h => ?_, fun x h => ?_⟩ <;> simp only [State.anchorsRead, ha, hk, h]

theorem State.anchorsRead_format {at_ : Attach} (ha : s.oc.attach = some at_) (hk : at_.arg = .format)
    (a b : Option Anchor) :
    s.anchorsRead a b = { s with
      oc := { s.oc with attach := some { at_ with phase := .writing } }
      lc := { s.lc.format with
        writes := s.lc.writes ++ [.anchor (.formatA (formatSession (selectAnchor a b)))] } } := by
  obtain ⟨phase, arg⟩ := at_
  obtain rfl : arg = .format := hk
  simp only [State.anchorsRead, ha]
  rw [State.setAttachPhase_of (s := { s with lc := s.lc.format }) ha]
  rfl

/-- Both copies read, the port free. -/
def State.bothRead (s : State) (b : Option Anchor) : State :=
  { s.portFreed with lc := { s.lc with copyB := copyOf b, attachRead := .none } }

theorem State.anchorRead_of_b (s : State) {a : Option Anchor} {d : BlockData} (h : s.endsWith (.lcReadB a) (.okay d)) :
    s.anchorRead (.okay d) =
      some ((s.bothRead (readAnchor s.log.slots d)).anchorsRead a (readAnchor s.log.slots d)) := by
  simp only [State.anchorRead, State.portOutcome_okay h]
  rfl

/-- Settles O42: each read's end by its owner and its reply. -/
theorem attachReadsRing : Obligations.AttachReadsRing := by
  intro s at_ hrun ha lost writing tested
  have hlost (c : Condition) : s.portFreed.attachFails c = lost c := State.attachFails_eq (s := s.portFreed) ha c
  have htested (header payload : BlockData) : s.portFreed.tailTest header payload = tested header payload := by
    cases h : ringTest s.lc s.log.slots s.lc.tail header payload with
    | passes k =>
      rw [State.tailTest_passes (s := s.portFreed) h]
      simp only [tested, h]
    | fails c =>
      rw [State.tailTest_fails (s := s.portFreed) ha h]
      simp only [tested, h, writing]
  refine ⟨fun o f ho h => claim_some hrun ?_, fun d h => claim_some hrun ?_, fun a d h hk => ?_, fun a d h hk => ?_,
    fun w h => claim_some hrun ?_, fun w p h => claim_some hrun ?_, fun o f ho h => claim_some hrun ?_⟩
  · rw [← hlost, ← failureCondition_eq]
    rcases ho with rfl | ⟨a, rfl⟩ <;> simp only [State.anchorRead, State.portOutcome_failed h]
  · simp only [State.anchorRead, State.portOutcome_okay h]
  · intro b
    have hexec := s.anchorRead_of_b h
    have hkeep := State.anchorsRead_keep (s := s.bothRead b) ha hk a b
    refine ⟨fun hna hnb => claim_some hrun (hexec.trans ?_), fun x hx => claim_some hrun (hexec.trans ?_)⟩
    · have hnone : selectAnchor a b = none := by rw [hna, hnb]; rfl
      rw [hkeep.1 hnone, State.attachFails_eq (s := s.bothRead b) ha]
      rfl
    · rw [hkeep.2 x hx]
      rfl
  · refine claim_some hrun ((s.anchorRead_of_b h).trans ?_)
    rw [State.anchorsRead_format (s := s.bothRead _) ha hk]
    rfl
  · simp only [State.tailRead, State.portOutcome_okay h]
    rw [← htested]
    split <;> rfl
  · simp only [State.tailRead, State.portOutcome_okay h]
    rw [← htested]
  · rw [← hlost, ← failureCondition_eq]
    rcases ho with rfl | ⟨w, rfl⟩ <;> simp only [State.tailRead, State.portOutcome_failed h]

end

end Sys2Proof.Machine

/-! SUPPORT. A recovery: RECOVER, the scan, and the replay. -/

namespace Sys2Proof.Machine

section
variable {s : State}

/-! ## The scan (R142 to R144, R147, R148) -/

/-- Either shape in which a record is complete: a header without payload, or a payload under its header. -/
abbrev Handling.completes (h : Handling) (header data : BlockData) : Prop :=
  h = .header ∧ header = data ∧ headerKind data ≠ some .undo ∨ h = .payload header

/-- The payload of a record read in full. -/
abbrev Handling.payloadOf (h : Handling) (data : BlockData) : BlockData := if h = .header then 0 else data

theorem State.scanRead_header {h : BlockData} (hst : s.re.stage = .scanning) (hh : s.re.handling = .header)
    (hend : s.endsWith .re (.okay h)) (hk : headerKind h = some .undo) :
    s.scanRead (.okay h) = some { s.portFreed with re := { s.re with handling := .payload h } } := by
  simp only [State.scanRead, if_pos hst, State.portOutcome_okay hend, hh, if_pos hk]

theorem State.scanRead_record {header data : BlockData} (hst : s.re.stage = .scanning)
    (hend : s.endsWith .re (.okay data)) (hh : s.re.handling.completes header data) :
    s.scanRead (.okay data) = some (s.portFreed.scanRecord header (s.re.handling.payloadOf data)) := by
  rcases hh with ⟨hh, rfl, hk⟩ | hh
  · simp only [State.scanRead, if_pos hst, State.portOutcome_okay hend, hh, if_neg hk, Handling.payloadOf, if_pos]
  · simp only [State.scanRead, if_pos hst, State.portOutcome_okay hend, hh, Handling.payloadOf]
    rfl

theorem State.scanRead_failed {f : MemFailure} (hst : s.re.stage = .scanning) (hend : s.endsWith .re (.failed f))
    (hh : ∀ a d, s.re.handling ≠ .restore a d) :
    s.scanRead (.failed f) = some (s.portFreed.haltRecoverySlot (failureCondition f)) := by
  simp only [State.scanRead, if_pos hst, State.portOutcome_failed hend]
  cases hc : s.re.handling
  case restore a d => exact absurd hc (hh a d)
  all_goals rfl

theorem State.scanRecord_passes {header payload : BlockData} {k : RecordKind}
    (h : ringTest s.lc s.log.slots s.re.cursor header payload = .passes k) :
    s.scanRecord header payload = s.scanPasses k (headerSerial header) := by
  simp only [State.scanRecord, h]

theorem State.scanRecord_fails {header payload : BlockData} {c : Condition}
    (h : ringTest s.lc s.log.slots s.re.cursor header payload = .fails c) :
    s.scanRecord header payload = s.scanEnds s.re.cursor := by
  simp only [State.scanRecord, h]

/-- Settles O43: RECOVER's two answers, then each read of the scan, its end and its halts by name. -/
theorem recoveryStartsAndScans : Obligations.RecoveryStartsAndScans := by
  intro s
  refine ⟨fun hl hm => ?_, fun hl hm => ?_, fun hrun hst => ?_⟩
  · exact command_refuse hl (if_pos hm)
  · exact command_showing hl (if_neg (not_not.mpr hm)) rfl
  · intro prev halted ended
    have hended (re : RestoreEngine) (head : Nat) :
        ({ s.portFreed with re := re } : State).scanEnds head = ended re head := rfl
    refine ⟨fun h hh hend hk => claim_some hrun (State.scanRead_header hst hh hend hk), fun header data hend hh => ?_,
      fun f hend hh => claim_some hrun ?_⟩
    · intro payload test
      have hexec := claim_some hrun (State.scanRead_record hst hend hh)
      refine ⟨fun k hk => ?_, fun c hc => hexec.trans ?_⟩
      · intro next counted
        refine hexec.trans ?_
        rw [State.scanRecord_passes (s := s.portFreed) hk]
        rfl
      · rw [State.scanRecord_fails (s := s.portFreed) hc]
        rfl
    · rw [State.scanRead_failed hst hend hh, failureCondition_eq]
      rfl

/-! ## The replay (R145 to R148) -/

section
variable (hst : s.re.stage = .replaying) (hp : s.re.purpose = .recovery)
include hst hp

theorem State.recoveryRead_header {h : BlockData} (hh : s.re.handling = .header)
    (hend : s.endsWith .re (.okay h)) (hk : headerKind h = some .undo) :
    s.recoveryRead (.okay h) = some { s.portFreed with re := { s.re with handling := .payload h } } := by
  simp only [State.recoveryRead, if_pos (And.intro hst hp), State.portOutcome_okay hend, hh, if_pos hk]

theorem State.recoveryRead_record {header data : BlockData} (hend : s.endsWith .re (.okay data))
    (hh : s.re.handling.completes header data) :
    s.recoveryRead (.okay data) = some (s.portFreed.recoveryRecord header (s.re.handling.payloadOf data)) := by
  rcases hh with ⟨hh, rfl, hk⟩ | hh
  · simp only [State.recoveryRead, if_pos (And.intro hst hp), State.portOutcome_okay hend, hh, if_neg hk,
      Handling.payloadOf, if_pos]
  · simp only [State.recoveryRead, if_pos (And.intro hst hp), State.portOutcome_okay hend, hh, Handling.payloadOf]
    rfl

theorem State.recoveryRead_failed {f : MemFailure} (hend : s.endsWith .re (.failed f))
    (hh : ∀ a d, s.re.handling ≠ .restore a d) :
    s.recoveryRead (.failed f) = some (s.portFreed.haltRecoverySlot (failureCondition f)) := by
  simp only [State.recoveryRead, if_pos (And.intro hst hp), State.portOutcome_failed hend]
  cases hc : s.re.handling
  case restore a d => exact absurd hc (hh a d)
  all_goals rfl

theorem State.recoveryRestoreEnds_okay {a : Addr} {d b : BlockData} (hh : s.re.handling = .restore a d)
    (hend : s.endsWith .re (.okay b)) :
    s.recoveryRestoreEnds (.okay b) =
      some ({ s.portFreed with re := { s.re with restored := s.re.restored + 1 } } : State).recoverySlotDone := by
  simp only [State.recoveryRestoreEnds, if_pos (And.intro hst hp), State.portOutcome_okay hend, hh]

theorem State.recoveryRestoreEnds_failed {a : Addr} {d : BlockData} {f : MemFailure} (hh : s.re.handling = .restore a d)
    (hend : s.endsWith .re (.failed f)) :
    s.recoveryRestoreEnds (.failed f) = some (s.portFreed.haltRecoverySlot (failureCondition f)) := by
  simp only [State.recoveryRestoreEnds, if_pos (And.intro hst hp), State.portOutcome_failed hend, hh]

end

theorem State.recoveryRecord_fails {header payload : BlockData} {c : Condition}
    (h : ringTest s.lc s.log.slots s.re.cursor header payload = .fails c) :
    s.recoveryRecord header payload = s.haltRecoverySlot c := by
  simp only [State.recoveryRecord, h]

theorem State.recoveryRecord_undo {header payload : BlockData}
    (h : ringTest s.lc s.log.slots s.re.cursor header payload = .passes .undo) :
    s.recoveryRecord header payload =
      if s.restorable (headerBlockAddr header) then
        { s with re := { s.re with handling := .restore (headerBlockAddr header) payload } }
      else s.haltRecoverySlot .badAddress := by
  simp only [State.recoveryRecord, h]

theorem State.recoveryRecord_mark {header payload : BlockData} {k : RecordKind}
    (h : ringTest s.lc s.log.slots s.re.cursor header payload = .passes k) (hk : k ≠ .undo) :
    s.recoveryRecord header payload = s.recoverySlotDone := by
  simp only [State.recoveryRecord, h]
  cases k
  case undo => exact absurd rfl hk
  all_goals rfl

/-- Settles O44: each read and restore by the handling of the slot, its end and its halts by name. -/
theorem recoveryReplays : Obligations.RecoveryReplays := by
  intro s hrun hst hp halted failed done
  have hfailed (c : Condition) : s.portFreed.haltRecoverySlot c = failed c := rfl
  have hdone (n : Word32) :
      ({ s.portFreed with re := { s.re with restored := n } } : State).recoverySlotDone = done n := rfl
  refine ⟨fun h hh hend hk => claim_some hrun (State.recoveryRead_header hst hp hh hend hk), fun f hend hh => ?_,
    fun header data hend hh => ?_, fun a d b hh hend => ?_, fun a d f hh hend => ?_⟩
  · refine claim_some hrun ?_
    rw [State.recoveryRead_failed hst hp hend hh, hfailed, failureCondition_eq]
  · intro payload test
    have hexec := claim_some hrun (State.recoveryRead_record hst hp hend hh)
    refine ⟨fun c hc => hexec.trans ?_, fun hu => hexec.trans ?_, fun k hk hne => hexec.trans ?_⟩
    · rw [State.recoveryRecord_fails (s := s.portFreed) hc, hfailed]
    · rw [State.recoveryRecord_undo (s := s.portFreed) hu, hfailed]
      rfl
    · rw [State.recoveryRecord_mark (s := s.portFreed) hk hne]
      exact congrArg (fun t => Host.Outcome.next (finish s t)) (hdone s.re.restored)
  · exact claim_some hrun (State.recoveryRestoreEnds_okay hst hp hh hend)
  · refine claim_some hrun ?_
    rw [State.recoveryRestoreEnds_failed hst hp hh hend, hfailed, failureCondition_eq]

end

end Sys2Proof.Machine

/-! SUPPORT. DETACH: its acceptance, its waits, and its completion. -/

namespace Sys2Proof.Machine

section
variable {s : State}

theorem State.detach_refused {code : ResultCode} (h : s.detachRefusal = some code) : s.detach = .refuse code := by
  simp only [State.detach, h]

theorem State.detach_accepted (h : s.detachRefusal = none) : s.detach = .done .accepted [] s.beginDetach := by
  simp only [State.detach, h]

theorem State.detachRefusal_detached (h : s.oc.mode = .offline ∨ s.oc.mode = .attaching) :
    s.detachRefusal = some .state := by
  rcases h with h | h <;> simp only [State.detachRefusal, h]

theorem State.detachRefusal_depth (hm : s.oc.mode = .online) (ho : s.oc.op = .idle) (hs : s.oc.stack ≠ []) :
    s.detachRefusal = some .depth := by
  simp only [State.detachRefusal, hm, ho]
  exact if_neg (by simpa using hs)

theorem State.detachRefusal_recovering (hm : s.oc.mode = .recovering) (hst : s.re.stage ≠ .halted) :
    s.detachRefusal = some .busy := by
  simp only [State.detachRefusal, hm]
  exact if_neg hst

theorem State.detachRefusal_at_work (hm : s.oc.mode = .online ∨ s.oc.mode = .fenced) (ho : s.oc.op ≠ .idle)
    (hh : ¬(s.oc.op = .halted ∧ s.re.stage = .halted)) : s.detachRefusal = some .busy := by
  rcases hm with hm | hm <;> simp only [State.detachRefusal, hm] <;> cases hop : s.oc.op
  case inl.idle | inr.idle => exact absurd hop ho
  case inl.halted | inr.halted => exact if_neg fun hst => hh ⟨hop, hst⟩
  all_goals rfl

/-- DETACH is accepted outside ONLINE and FENCED. -/
theorem State.detachRefusal_apart (h : s.oc.mode = .suspect ∨ s.oc.mode = .recovering ∧ s.re.stage = .halted) :
    s.detachRefusal = none := by
  rcases h with h | ⟨h, hst⟩ <;> simp only [State.detachRefusal, h]
  exact if_pos hst

/-- DETACH is accepted in ONLINE and FENCED. -/
theorem State.detachRefusal_online (h : s.oc.mode = .online ∧ s.oc.op = .idle ∧ s.oc.stack = []
    ∨ s.oc.mode = .fenced ∧ s.oc.op = .idle
    ∨ (s.oc.mode = .online ∨ s.oc.mode = .fenced) ∧ s.oc.op = .halted ∧ s.re.stage = .halted) :
    s.detachRefusal = none ∧ (s.oc.mode = .online ∨ s.oc.mode = .fenced) := by
  rcases h with ⟨hm, ho, hs⟩ | ⟨hm, ho⟩ | ⟨hm, ho, hst⟩
  · refine ⟨?_, .inl hm⟩
    simp only [State.detachRefusal, hm, ho]
    exact if_pos (by simp [hs])
  · refine ⟨?_, .inr hm⟩
    simp only [State.detachRefusal, hm, ho]
  · refine ⟨?_, hm⟩
    rcases hm with hm | hm <;> simp only [State.detachRefusal, hm, ho] <;> exact if_pos hst

theorem State.beginDetach_eq {op : OpState}
    (h : (if s.oc.mode = .online ∨ s.oc.mode = .fenced then OpState.detaching else s.oc.op) = op) :
    s.beginDetach = { s with
      oc := { s.oc with op := op, timer := none, rotationPending := false, detaching := true }
      lc := { s.lc with writes := [], attachRead := .none } } := by
  subst h
  rfl

theorem State.detachWaitOver_iff :
    s.detachWaitOver = true ↔ s.oc.detaching = true
      ∧ (∀ a, s.dp.port = some a → a.owner.requester = .masterPath)
      ∧ ∀ e ∈ s.hq.entries, e.cls = .track → e.issued = false := by
  have hport : (s.dp.port.any fun a => decide (a.owner.requester ≠ .masterPath)) = false ↔
      ∀ a, s.dp.port = some a → a.owner.requester = .masterPath := by
    cases s.dp.port <;> simp
  have hheld : (s.hq.entries.all fun e => !(e.isTrack && e.issued)) = true ↔
      ∀ e ∈ s.hq.entries, e.cls = .track → e.issued = false := by
    simp [HoldEntry.isTrack, imp_iff_not_or]
  unfold State.detachWaitOver
  rw [Bool.and_eq_true, Bool.and_eq_true, Bool.not_eq_true', hport, hheld, and_assoc]

/-- The completion of a detach. -/
theorem State.detachCompletes_of (h : s.detachWaitOver = true) :
    s.detachCompletes = some { s.discardHeld (fun e => decide (e.cls = .track)) with
      cf := [], ce := State.reset.ce, lc := State.reset.lc, re := State.reset.re
      oc := { State.reset.oc with faultLine := s.oc.faultLine }
      eq :=
        (if s.oc.latch then
          s.eq.push { kind := .faultDropped, level := 0, condition := .none, serial := 0, argument := 1 }
        else s.eq).push
          { kind := .detached, level := 0, condition := .none, serial := 0,
            argument := BitVec.ofNat 32 (s.discardCount fun e => decide (e.cls = .track)) } } := by
  unfold State.detachCompletes
  rw [if_pos h]
  unfold State.dropLatch
  rw [← s.discardHeld_eq fun e => decide (e.cls = .track)]
  cases hl : s.oc.latch <;> rfl

/-- Settles O45: the refusal by mode, operation and stage, the two acceptances, and the completion with its waits. -/
theorem detachAcceptedAndCompleted : Obligations.DetachAcceptedAndCompleted := by
  intro s stopped cleared
  refine ⟨fun hl h => ?_, fun hl hm ho hs => ?_, fun hl h => ?_, fun hl h => ?_, fun hl h => ?_,
    fun hrun hd hport hheld => ?_, fun hrun h => ?_⟩
  · exact command_refuse hl (State.detach_refused (State.detachRefusal_detached h))
  · exact command_refuse hl (State.detach_refused (State.detachRefusal_depth hm ho hs))
  · refine command_refuse hl (State.detach_refused ?_)
    rcases h with ⟨hm, hst⟩ | ⟨hm, ho, hh⟩
    · exact State.detachRefusal_recovering hm hst
    · exact State.detachRefusal_at_work hm ho hh
  · refine (command_showing hl (State.detach_accepted (State.detachRefusal_apart h)) rfl).trans ?_
    have hmode : ¬(s.oc.mode = .online ∨ s.oc.mode = .fenced) := by
      rcases h with h | ⟨h, -⟩ <;> simp [h]
    rw [State.beginDetach_eq (if_neg hmode)]
  · obtain ⟨hnone, hmode⟩ := State.detachRefusal_online h
    refine (command_showing hl (State.detach_accepted hnone) rfl).trans ?_
    rw [State.beginDetach_eq (if_pos hmode)]
  · exact claim_some hrun (State.detachCompletes_of (State.detachWaitOver_iff.mpr ⟨hd, hport, hheld⟩))
  · refine claim_none (if_neg fun hover => ?_)
    obtain ⟨hd, hport, hheld⟩ := State.detachWaitOver_iff.mp hover
    rcases h with h | ⟨a, ha, hne⟩ | ⟨e, he, hc, hi⟩
    · exact Bool.false_ne_true (h.symm.trans hd)
    · exact hne (hport a ha)
    · exact Bool.false_ne_true ((hheld e he hc).symm.trans hi)

end

end Sys2Proof.Machine

/-! SUPPORT. A rollback: its acceptance, its settling, its replay, and what ABORT, RESUME and DISCARD do. -/

namespace Sys2Proof.Machine

section
variable {s : State}

/-! ## ROLLBACK (R108, R115, R117) -/

/-- Where ROLLBACK is allowed. -/
theorem State.rollbackAllowed_iff :
    (decide (s.oc.mode = .online) || s.oc.frozen) = true ↔
      s.oc.mode = .online ∨ s.oc.mode = .fenced ∧ s.oc.fence = .frozen := by
  rw [Bool.or_eq_true, decide_eq_true_eq, Controller.frozen_iff]

/-- There the mode alone tells whether the part is frozen. -/
theorem Controller.frozen_of_allowed {oc : Controller} (h : oc.mode = .online ∨ oc.mode = .fenced ∧ oc.fence = .frozen) :
    oc.frozen = decide (oc.mode = .fenced) := by
  rcases h with h | ⟨h, hf⟩ <;> simp [Controller.frozen, *]

theorem exec_rollback_refused {j : Byte} {code : ResultCode} (hl : s.linked)
    (h : firstFailure (s.rollbackChecks j.toNat) = some code) :
    exec (.rollback j) s = .next { s with link := s.link.showing code [] } :=
  command_refuse hl (by simp only [State.rollback, h])

/-- Settles O46: the five checks in order, and the acceptance. -/
theorem rollbackAccepted : Obligations.RollbackAccepted := by
  intro s j hl range inRange refused allowed
  have hallowed : (decide (s.oc.mode = .online) || s.oc.frozen) = true ↔ allowed := State.rollbackAllowed_iff
  have hnot (h : ¬allowed) : (decide (s.oc.mode = .online) || s.oc.frozen) = false :=
    Bool.eq_false_of_not_eq_true fun h' => h (hallowed.mp h')
  refine ⟨fun ha => ?_, fun ha ho => ?_, fun ha ho hs => ?_, fun ha ho hs hj => ?_, fun ha ho h1 hd => ?_⟩
  · exact exec_rollback_refused hl (firstFailure_cons_of_fails (hnot ha))
  · refine exec_rollback_refused hl ((firstFailure_cons_of_passes (hallowed.mpr ha)).trans ?_)
    exact firstFailure_cons_of_fails (by simp [ho])
  · refine exec_rollback_refused hl ((firstFailure_cons_of_passes (hallowed.mpr ha)).trans ?_)
    rw [firstFailure_cons_of_passes (by simp [ho])]
    exact firstFailure_cons_of_fails (by simp [Controller.depth, hs])
  · refine exec_rollback_refused hl ((firstFailure_cons_of_passes (hallowed.mpr ha)).trans ?_)
    have hpos : 1 ≤ s.oc.depth := List.length_pos_of_ne_nil hs
    rw [firstFailure_cons_of_passes (by simp [ho]), firstFailure_cons_of_passes (by simp [hpos])]
    refine firstFailure_cons_of_fails ?_
    rw [← Bool.not_eq_true, Bool.and_eq_true, decide_eq_true_eq, decide_eq_true_eq, Controller.depth]
    omega
  · have hpos : 1 ≤ s.oc.depth := Nat.le_trans h1 hd
    have hchecks : firstFailure (s.rollbackChecks j.toNat) = firstFailure [(!s.oc.brokenFrom j.toNat, .broken)] := by
      unfold State.rollbackChecks
      rw [firstFailure_cons_of_passes (hallowed.mpr ha), firstFailure_cons_of_passes (by simp [ho]),
        firstFailure_cons_of_passes (by simp [hpos]),
        firstFailure_cons_of_passes (by simp [h1, Controller.depth, hd])]
    refine ⟨fun hb => ?_, fun hb => ?_⟩
    · have hb' : s.oc.brokenFrom j.toNat = true := hb
      exact exec_rollback_refused hl (hchecks.trans (firstFailure_cons_of_fails (by simp [hb'])))
    · have hb' : s.oc.brokenFrom j.toNat = false := hb
      have hpass : firstFailure (s.rollbackChecks j.toNat) = none := by
        rw [hchecks, hb']
        rfl
      refine (command_showing hl (code := .accepted) (data := bigEndianNat (s.rollbackDrops j.toNat))
        (t := s.acceptRollback j.toNat .command) ?_ ?_).trans ?_
      · simp only [State.rollback, hpass]
      · rw [State.acceptRollback_eq]
        exact State.discardHeld_link ..
      · rw [State.acceptRollback_eq, Controller.frozen_of_allowed ha]
        rfl

/-! ## Settling (R119, R121, R129) -/

theorem State.settled_iff :
    s.settled = true ↔ (∀ c ∈ s.ce.contexts, c = none) ∧ (∀ e ∈ s.hq.entries, e.cls ≠ .track)
      ∧ ∀ p, s.hq.read = some p → p.cls ≠ .track := by
  have hread : (s.hq.read.any fun r => decide (r.cls = .track)) = false ↔ ∀ p, s.hq.read = some p → p.cls ≠ .track := by
    cases s.hq.read <;> simp
  unfold State.settled
  rw [Bool.and_eq_true, Bool.and_eq_true, CaptureEngine.allFree_iff, Bool.not_eq_true', Bool.not_eq_true',
    HoldQueue.holdsTrack_iff, hread, and_assoc]

theorem State.settle_of (hst : s.re.stage = .settling) (hset : s.settled = true) :
    s.settle = some
      (if s.oc.brokenFrom s.re.target then s.haltRollback s.re.rangeBreak (prevSlot s.log.slots s.lc.head)
      else if s.re.abortRequested then s.haltRollback .aborted (prevSlot s.log.slots s.lc.head)
      else { s with re := { s.re with
        stage := .replaying, cursor := prevSlot s.log.slots s.lc.head, handling := .header } }) := by
  unfold State.settle
  rw [if_pos ⟨hst, hset⟩]
  dsimp only
  rw [apply_ite some, apply_ite some]

/-- Settles O47: the condition, and the three ends. -/
theorem settlingEnds : Obligations.SettlingEnds := by
  intro s hrun settled last halted broken
  have hsettled : s.settled = true ↔ settled := State.settled_iff
  have hexec (hst : s.re.stage = .settling) (hset : settled) := claim_some hrun (State.settle_of hst (hsettled.mpr hset))
  refine ⟨fun h => claim_none (if_neg ?_), fun hst hset hb => (hexec hst hset).trans ?_,
    fun hst hset hb ha => (hexec hst hset).trans ?_, fun hst hset hb ha => (hexec hst hset).trans ?_⟩
  · rintro ⟨hst, hset⟩
    exact h.elim (· hst) (· (hsettled.mp hset))
  · rw [if_pos (show s.oc.brokenFrom s.re.target = true from hb)]
    rfl
  · rw [if_neg (show ¬s.oc.brokenFrom s.re.target = true from Bool.eq_false_iff.mp hb), if_pos ha]
    rfl
  · rw [if_neg (show ¬s.oc.brokenFrom s.re.target = true from Bool.eq_false_iff.mp hb), if_neg (Bool.eq_false_iff.mp ha)]
    rfl

/-! ## The replay (R122 to R130) -/

section
variable (hst : s.re.stage = .replaying) (hp : s.re.purpose = .rollback)
include hst hp

theorem State.replayRead_header {h : BlockData} (hh : s.re.handling = .header)
    (hend : s.endsWith .re (.okay h)) (hk : headerKind h = some .undo) :
    s.replayRead (.okay h) = some { s.portFreed with re := { s.re with handling := .payload h } } := by
  simp only [State.replayRead, if_pos (And.intro hst hp), State.portOutcome_okay hend, hh, if_pos hk]

theorem State.replayRead_record {header data : BlockData} (hend : s.endsWith .re (.okay data))
    (hh : s.re.handling.completes header data) :
    s.replayRead (.okay data) = some (s.portFreed.replayRecord header (s.re.handling.payloadOf data)) := by
  rcases hh with ⟨hh, rfl, hk⟩ | hh
  · simp only [State.replayRead, if_pos (And.intro hst hp), State.portOutcome_okay hend, hh, if_neg hk,
      Handling.payloadOf, if_pos]
  · simp only [State.replayRead, if_pos (And.intro hst hp), State.portOutcome_okay hend, hh, Handling.payloadOf]
    rfl

theorem State.replayRead_failed {f : MemFailure} (hend : s.endsWith .re (.failed f))
    (hh : ∀ a d, s.re.handling ≠ .restore a d) :
    s.replayRead (.failed f) = some (s.portFreed.haltSlot (failureCondition f)) := by
  simp only [State.replayRead, if_pos (And.intro hst hp), State.portOutcome_failed hend]
  cases hc : s.re.handling
  case restore a d => exact absurd hc (hh a d)
  all_goals rfl

theorem State.restoreEnds_okay {a : Addr} {d b : BlockData} (hh : s.re.handling = .restore a d)
    (hend : s.endsWith .re (.okay b)) :
    s.restoreEnds (.okay b) =
      some ({ s.portFreed with re := { s.re with restored := s.re.restored + 1 } } : State).slotDone := by
  simp only [State.restoreEnds, if_pos (And.intro hst hp), State.portOutcome_okay hend, hh]

theorem State.restoreEnds_failed {a : Addr} {d : BlockData} {f : MemFailure} (hh : s.re.handling = .restore a d)
    (hend : s.endsWith .re (.failed f)) :
    s.restoreEnds (.failed f) = some (s.portFreed.haltSlot (failureCondition f)) := by
  simp only [State.restoreEnds, if_pos (And.intro hst hp), State.portOutcome_failed hend, hh]

end

section
variable {header payload : BlockData} {k : RecordKind}

theorem State.replayRecord_fails {c : Condition}
    (h : ringTest s.lc s.log.slots s.re.cursor header payload = .fails c) : s.replayRecord header payload = s.haltSlot c := by
  simp only [State.replayRecord, h]

section
variable (h : ringTest s.lc s.log.slots s.re.cursor header payload = .passes k)
include h

theorem State.replayRecord_refused {c : Condition} (ht : s.rollbackTests header k = c) (hc : c ≠ .none) :
    s.replayRecord header payload = s.haltSlot c := by
  simp only [State.replayRecord, h, ht]

theorem State.replayRecord_undo (ht : s.rollbackTests header k = .none) (hk : k = .undo) :
    s.replayRecord header payload =
      { s with re := { s.re with handling := .restore (headerBlockAddr header) payload } } := by
  subst hk
  simp only [State.replayRecord, h, ht]

theorem State.replayRecord_open (ht : s.rollbackTests header k = .none) (hk : k = .open_) :
    s.replayRecord header payload = s.replayOpen := by
  subst hk
  simp only [State.replayRecord, h, ht]

/-- An OPEN or VOID record at no start slot needs nothing. -/
theorem State.replayRecord_mark (ht : s.rollbackTests header k = .none) (hk : k ≠ .undo) (hs : s.atStartSlot = false) :
    s.replayRecord header payload = s.slotDone := by
  simp only [State.replayRecord, h, ht]
  cases k
  case undo => exact absurd rfl hk
  case open_ => exact if_neg (by simp [hs])
  case void => rfl

end

theorem State.rollbackTests_old (h : (headerSerial header).toNat < s.re.targetSerial.toNat) :
    s.rollbackTests header k = .badSerial := if_pos h

section
variable (hnew : ¬(headerSerial header).toNat < s.re.targetSerial.toNat)
include hnew

theorem State.rollbackTests_outside (h : k = .undo ∧ s.restorable (headerBlockAddr header) = false) :
    s.rollbackTests header k = .badAddress := by
  unfold State.rollbackTests
  rw [if_neg hnew, if_pos (by simp [h])]

variable (hin : ¬(k = .undo ∧ s.restorable (headerBlockAddr header) = false))
include hin

theorem State.rollbackTests_inside :
    s.rollbackTests header k =
      if s.atStartSlot = true ∧ ¬(k = .open_ ∧ headerSerial header = s.oc.innermost) then .badSerial else .none := by
  unfold State.rollbackTests
  rw [if_neg hnew, if_neg (by simpa using hin)]

end

end

/-- The cursor at the innermost level's start slot. -/
theorem State.atStartSlot_iff :
    s.atStartSlot = true ↔ s.oc.stack.getLast?.bind Level.start = some s.re.cursor := by
  rcases List.eq_nil_or_concat s.oc.stack with hs | ⟨base, l, hs⟩
  · have hnone : s.oc.level s.oc.depth = none := by simp [Controller.level, Controller.depth, hs]
    simp [State.atStartSlot, hnone, hs]
  · rw [List.concat_eq_append] at hs
    simp [State.atStartSlot, Controller.level_depth hs, hs]

/-- A level popped from above another. -/
theorem State.popLevel_inner {base : List Level} {l : Level} (hs : s.oc.stack = base ++ [l]) (hb : base ≠ []) :
    s.popLevel = { s with
      oc := { s.oc with stack := base, stamp := (base.getLast?.map Level.serial).getD 0 }
      cf := s.cf.filter fun e => decide (e.level ≠ base.length + 1) } := by
  rw [State.popLevel_eq hs, if_neg hb, if_neg hb]

/-- The last level popped, the timer stopped. -/
theorem State.popLevel_last {l : Level} (hs : s.oc.stack = [l]) :
    s.popLevel = { s with
      oc := { s.oc with stack := [], stamp := 0, timer := none, rotationPending := false }
      cf := s.cf.filter fun e => decide (e.level ≠ 1) } :=
  (State.popLevel_eq (base := []) hs).trans rfl

theorem State.replayOpen_pops {base : List Level} {l : Level} (hs : s.oc.stack = base ++ [l])
    (hstart : s.atStartSlot = true) :
    s.replayOpen = if base.length + 1 = s.re.target then s.popLevel.replayEnds else s.popLevel.slotDone := by
  have hd : s.oc.depth = base.length + 1 := by simp [Controller.depth, hs]
  unfold State.replayOpen
  rw [if_pos hstart, hd]

/-- Settles O48: the reads and restores by the handling of the slot, and the record by the tests it passes or fails. -/
theorem replayHandlesSlot : Obligations.ReplayHandlesSlot := by
  intro s hrun hst hp halted failed done atStart
  have hfailed (c : Condition) : s.portFreed.haltSlot c = failed c := rfl
  have hstart : s.portFreed.atStartSlot = true ↔ atStart := State.atStartSlot_iff (s := s.portFreed)
  refine ⟨fun h hh hend hk => claim_some hrun (State.replayRead_header hst hp hh hend hk), fun f hend hh => ?_,
    fun header data hend hh => ?_, fun a d b hh hend => claim_some hrun (State.restoreEnds_okay hst hp hh hend),
    fun a d f hh hend => ?_⟩
  · refine claim_some hrun ?_
    rw [State.replayRead_failed hst hp hend hh, hfailed, failureCondition_eq]
  · intro payload test leaves
    have hleaves {t : State} (h : s.portFreed.replayRecord header payload = t) : leaves t := by
      subst h
      exact claim_some hrun (State.replayRead_record hst hp hend hh)
    refine ⟨fun c hc => hleaves (State.replayRecord_fails (s := s.portFreed) hc), fun k hk => ?_⟩
    intro old outside
    have hring : ringTest s.portFreed.lc s.portFreed.log.slots s.portFreed.re.cursor header payload = .passes k := hk
    refine ⟨fun ho => hleaves ?_, fun ho hout => hleaves ?_, fun ho hin ha hne => hleaves ?_, fun ho hin ha hu => hleaves ?_,
      fun ho ha hne => hleaves ?_, fun base l ho hopen hs hl hser => ?_⟩
    · exact State.replayRecord_refused hring (State.rollbackTests_old (s := s.portFreed) ho) nofun
    · exact State.replayRecord_refused hring (State.rollbackTests_outside (s := s.portFreed) ho hout) nofun
    · refine State.replayRecord_refused hring (State.rollbackTests_inside (s := s.portFreed) ho hin |>.trans ?_) nofun
      exact if_pos ⟨hstart.mpr ha, hne⟩
    · refine State.replayRecord_undo hring (State.rollbackTests_inside (s := s.portFreed) ho hin |>.trans ?_) hu
      exact if_neg fun h => ha (hstart.mp h.1)
    · refine State.replayRecord_mark hring (State.rollbackTests_inside (s := s.portFreed) ho ?_ |>.trans ?_) hne ?_
      · exact fun h => hne h.1
      · exact if_neg fun h => ha (hstart.mp h.1)
      · exact Bool.eq_false_of_not_eq_true fun h => ha (hstart.mp h)
    · intro popped ending
      have ha : atStart := by simp only [atStart, hs, List.getLast?_concat, Option.bind_some, hl]
      have hstack : s.portFreed.oc.stack = base ++ [l] := hs
      have htests : s.portFreed.rollbackTests header k = .none := by
        refine (State.rollbackTests_inside (s := s.portFreed) ho fun h => ?_).trans (if_neg fun h => h.2 ⟨hopen, ?_⟩)
        · rw [hopen] at h
          exact nomatch h.1
        · rw [hser, Controller.innermost_append hstack]
      have hrecord := (State.replayRecord_open hring htests hopen).trans
        (State.replayOpen_pops hstack (hstart.mpr ha))
      refine ⟨fun hb ht => hleaves (hrecord.trans ?_), fun hb ht => hleaves (hrecord.trans ?_),
        fun hb ht => hleaves (hrecord.trans ?_)⟩
      · rw [if_neg (show ¬base.length + 1 = s.portFreed.re.target from fun h => Nat.ne_of_gt ht h),
          State.popLevel_inner hstack hb]
        rfl
      · have hpos := List.length_pos_of_ne_nil hb
        rw [if_pos (show base.length + 1 = s.portFreed.re.target from ht.symm), State.popLevel_inner hstack hb]
        unfold State.replayEnds
        rw [if_neg (show ¬s.re.target = 1 by omega), State.rolledBack_eq]
        have htimer : (if s.re.fromFreeze = true ∧ base ≠ [] then s.opts.fullPeriod else s.oc.timer) =
            if s.re.fromFreeze = true then s.opts.fullPeriod else s.oc.timer := by
          simp only [hb, ne_eq, not_false_eq_true, and_true]
        dsimp only
        rw [htimer]
      · subst hb
        rw [if_pos (show [].length + 1 = s.portFreed.re.target from ht.symm), State.popLevel_last hstack]
        unfold State.replayEnds
        rw [if_pos (show s.re.target = 1 from ht)]
        rfl
  · refine claim_some hrun ?_
    rw [State.restoreEnds_failed hst hp hh hend, hfailed, failureCondition_eq]

end

end Sys2Proof.Machine

/-! SUPPORT. ABORT, RESUME and DISCARD. -/

namespace Sys2Proof.Machine

section
variable {s : State}

theorem State.recoveryHalted_iff : s.recoveryHalted = true ↔ s.oc.mode = .recovering ∧ s.re.stage = .halted := by
  simp [State.recoveryHalted]

theorem State.abortable_iff :
    s.abortable = true ↔ s.oc.op = .rolling ∨ s.oc.mode = .recovering ∧ s.re.stage ≠ .halted := by
  simp [State.abortable]

theorem exec_resume_refused {code : ResultCode} (hl : s.linked) (h : firstFailure s.resumeChecks = some code) :
    exec .resume s = .next { s with link := s.link.showing code [] } :=
  command_refuse hl (by simp only [State.resume, h])

/-- RESUME's last two checks, where a rollback or a recovery stands halted. -/
theorem State.resumeChecks_of_halted (h : s.oc.op = .halted ∨ s.oc.mode = .recovering ∧ s.re.stage = .halted)
    (ha : s.re.stage ≠ .anchoring) :
    firstFailure s.resumeChecks = firstFailure [(s.recoveryHalted || !s.oc.brokenFrom s.re.target, .broken)] := by
  unfold State.resumeChecks
  rw [firstFailure_cons_of_passes, firstFailure_cons_of_passes (by simp [ha])]
  rw [Bool.or_eq_true, decide_eq_true_eq, State.recoveryHalted_iff]
  exact h

/-- The restore engine as RESUME sets it, but for its stage. -/
def RestoreEngine.resumed (re : RestoreEngine) : RestoreEngine :=
  { re with abortRequested := false, haltCondition := .none, handling := .header }

theorem State.resume_of_recovery (h : firstFailure s.resumeChecks = none) (hr : s.recoveryHalted = true) :
    s.resume = .done .accepted [] { s with
      re := { s.re.resumed with stage := if s.re.resumeScanning then .scanning else .replaying } } := by
  simp only [State.resume, h]
  exact if_pos hr

theorem State.resume_of_rollback (h : firstFailure s.resumeChecks = none) (hr : s.recoveryHalted = false) :
    s.resume = .done .accepted [] { s with
      re := { s.re.resumed with stage := .replaying }, oc := { s.oc with op := .rolling } } := by
  simp only [State.resume, h]
  exact if_neg (by simp [hr])

theorem State.discard_of (ho : s.oc.op = .halted) (ha : s.re.stage ≠ .anchoring) :
    s.discard =
      if s.discardLevels.oc.stack = [] then
        .done .accepted [] ({ s.discardLevels.stopTimer with
          re := { s.discardLevels.re with purpose := .discard, stage := .anchoring } }.queueWrite (.anchor .discard))
      else .done .ok []
        (({ s.discardLevels with re := { s.discardLevels.re with stage := .idle } }.endOperation).raiseDiscarded) := by
  unfold State.discard
  rw [if_neg (not_not.mpr ho), if_neg ha]
  simp only [List.isEmpty_iff]

/-! ## The pops of DISCARD (R70, R132) -/

/-- The filter entries outside the levels above `k` up to `n`. -/
def filterOutside (cf : List FilterEntry) (k n : Nat) : List FilterEntry :=
  cf.filter fun e => decide (e.level < k + 1) || decide (n < e.level)

theorem filterOutside_one (cf : List FilterEntry) (k : Nat) :
    (cf.filter fun e => decide (e.level ≠ k + 1)) = filterOutside cf k (k + 1) := by
  refine List.filter_congr fun e _ => ?_
  rw [← Bool.decide_or]
  exact decide_eq_decide.mpr (by omega)

theorem filterOutside_pop (cf : List FilterEntry) {k n : Nat} (h : k ≤ n) :
    filterOutside (cf.filter fun e => decide (e.level ≠ n + 1)) k n = filterOutside cf k (n + 1) := by
  unfold filterOutside
  rw [List.filter_filter]
  refine List.filter_congr fun e _ => ?_
  rw [← Bool.decide_or, ← Bool.decide_or, ← Bool.decide_and]
  exact decide_eq_decide.mpr (by omega)

/-- Popping a run of levels leaves those below it, their filter entries, and the timer unless none is left. -/
theorem State.popLevels_eq {kept : List Level} : ∀ (popped : List Level) (s : State), popped ≠ [] →
    s.oc.stack = kept ++ popped →
    s.popLevels popped.length = { s with
      oc := { s.oc with
        stack := kept, stamp := (kept.getLast?.map Level.serial).getD 0
        timer := if kept = [] then none else s.oc.timer
        rotationPending := if kept = [] then false else s.oc.rotationPending }
      cf := filterOutside s.cf kept.length (kept.length + popped.length) } := by
  intro popped
  induction popped using List.reverseRecOn with
  | nil => exact fun _ h => absurd rfl h
  | append_singleton init l ih =>
    intro s _ hs
    rw [← List.append_assoc] at hs
    rw [List.length_append, List.length_singleton, State.popLevels]
    by_cases hinit : init = []
    · subst hinit
      rw [List.append_nil] at hs
      rw [State.popLevel_eq hs, filterOutside_one]
      rfl
    · have hbase : kept ++ init ≠ [] := fun h => hinit (List.append_eq_nil_iff.mp h).2
      rw [State.popLevel_inner hs hbase, ih _ hinit rfl]
      dsimp only
      rw [List.length_append, filterOutside_pop s.cf (Nat.le_add_right ..)]
      rfl

/-- The pops and the break of a DISCARD, over a stack `kept ++ popped` with its target at the first of `popped`. -/
theorem State.discardLevels_eq {kept popped : List Level} (hst : s.re.stage = .halted) (hs : s.oc.stack = kept ++ popped)
    (hne : popped ≠ []) (ht : s.re.target = kept.length + 1) :
    s.discardLevels = { s with
      oc := { s.oc with
        stack := kept.map fun l => { l with broken := true }
        stamp := (kept.getLast?.map Level.serial).getD 0
        timer := if kept = [] then none else s.oc.timer
        rotationPending := if kept = [] then false else s.oc.rotationPending }
      cf := s.cf.filter fun e => decide (e.level < s.re.target) || decide (s.oc.stack.length < e.level)
      re := { s.re with popped := popped.length }
      eq := kept.zipIdx.foldl (fun q p =>
        if p.1.broken then q
        else q.push { kind := .epochBroken, level := BitVec.ofNat 8 (p.2 + 1), condition := s.re.haltCondition,
                      serial := p.1.serial, argument := 0 }) s.eq } := by
  have hpops : s.discardPops = popped.length := by
    unfold State.discardPops Controller.depth
    rw [hs, ht, List.length_append]
    omega
  have hfold (push : EventQueue → Level × Nat → EventQueue) (q : EventQueue) :
      (kept.zipIdx.filter fun p => !p.1.broken).foldl push q =
        kept.zipIdx.foldl (fun q p => if p.1.broken then q else push q p) q := by
    rw [List.foldl_filter]
    refine congrArg (fun f => kept.zipIdx.foldl f q) (funext fun q => funext fun p => ?_)
    cases p.1.broken <;> rfl
  unfold State.discardLevels
  rw [hpops, State.popLevels_eq popped s hne hs, State.breakAll_eq]
  dsimp only
  rw [hfold, if_neg (c := _ ∧ _) fun h => Stage.noConfusion (hst.symm.trans h.1), hs, ht, List.length_append]
  rfl

/-- Settles O49: the checks of the three commands in order, and what each does once they pass. -/
theorem abortResumeDiscard : Obligations.AbortResumeDiscard := by
  intro s hl refused running recoveryHalted resumed
  have hrecovering (h : recoveryHalted) : s.recoveryHalted = true := State.recoveryHalted_iff.mpr h
  have hnone (h : ¬recoveryHalted) : s.recoveryHalted = false :=
    Bool.eq_false_of_not_eq_true fun h' => h (State.recoveryHalted_iff.mp h')
  refine ⟨fun h => ?_, fun h ha => ?_, fun h ha => ?_, fun ho hr => ?_, fun ho ha => ?_, fun ho hr ha => ⟨fun hb => ?_,
    fun hb => ?_⟩, fun hr => ?_, fun ho => ?_, fun ho ha => ?_, fun kept popped ho hst hs hne ht => ?_⟩
  · refine command_refuse hl (if_pos ?_)
    rw [Bool.not_eq_true', ← Bool.not_eq_true]
    exact fun h' => h (State.abortable_iff.mp h')
  · refine command_refuse hl ((if_neg ?_).trans (if_pos ha))
    rw [State.abortable_iff.mpr h]
    exact Bool.noConfusion
  · refine command_showing hl ((if_neg ?_).trans (if_neg ha)) rfl
    rw [State.abortable_iff.mpr h]
    exact Bool.noConfusion
  · refine exec_resume_refused hl (firstFailure_cons_of_fails ?_)
    rw [← Bool.not_eq_true, Bool.or_eq_true, decide_eq_true_eq, State.recoveryHalted_iff]
    exact not_or.mpr ⟨ho, hr⟩
  · refine exec_resume_refused hl ((firstFailure_cons_of_passes (by simp [ho])).trans ?_)
    exact firstFailure_cons_of_fails (by simp [ha])
  · refine exec_resume_refused hl ((State.resumeChecks_of_halted (.inl ho) ha).trans (firstFailure_cons_of_fails ?_))
    rw [hnone hr, show s.oc.brokenFrom s.re.target = true from hb]
    rfl
  · have hpass : firstFailure s.resumeChecks = none := by
      rw [State.resumeChecks_of_halted (.inl ho) ha, show s.oc.brokenFrom s.re.target = false from hb, Bool.or_comm]
      rfl
    refine command_showing hl (State.resume_of_rollback hpass (hnone hr)) rfl
  · have ha : s.re.stage ≠ .anchoring := by rw [hr.2]; exact Stage.noConfusion
    have hpass : firstFailure s.resumeChecks = none := by
      rw [State.resumeChecks_of_halted (.inr hr) ha, hrecovering hr]
      rfl
    exact command_showing hl (State.resume_of_recovery hpass (hrecovering hr)) rfl
  · exact command_refuse hl (if_pos ho)
  · exact command_refuse hl ((if_neg (not_not.mpr ho)).trans (if_pos ha))
  · have ha : s.re.stage ≠ .anchoring := by rw [hst]; exact Stage.noConfusion
    have hlevels := State.discardLevels_eq hst hs hne ht
    have hdiscard := State.discard_of ho ha
    rw [hlevels] at hdiscard
    refine ⟨fun hk => ?_, fun hk => ?_⟩
    · subst hk
      exact command_showing hl (hdiscard.trans (if_pos rfl)) rfl
    · rw [if_neg (fun h => hk (List.map_eq_nil_iff.mp h)), if_neg hk, if_neg hk] at hdiscard
      exact command_showing hl hdiscard rfl

end

end Sys2Proof.Machine

/-! SUPPORT. When the requests stand at the arbiter, which of them it grants, and what each then presents. -/

namespace Sys2Proof.Machine

section
variable {s : State}

/-! ## Standing requests (R100 to R103, R159, R161) -/

theorem State.trackBarred_iff :
    s.trackBarred = true ↔
      s.oc.detaching = true ∨ s.oc.op = .detaching ∨ s.oc.mode = .fenced ∧ s.oc.fence = .frozen ∧ s.oc.op = .idle := by
  simp [State.trackBarred, or_assoc, and_assoc]

theorem State.eligible_iff {older : List HoldEntry} {e : HoldEntry} :
    s.eligible older e = true ↔
      e.issued = false ∧ e.capture = .free
      ∧ (∀ o ∈ older, o.issued = false → o.block ≠ e.block)
      ∧ (e.cls ≠ .track → ∀ o ∈ older, o.issued = true)
      ∧ (∀ o ∈ older, o.issued = false → o.cls = .track)
      ∧ ¬(e.cls = .track ∧ s.trackBarred = true) := by
  have hheld (o : HoldEntry) (q : Bool) : (!o.held || q) = true ↔ (o.issued = false → q = true) := by
    unfold HoldEntry.held
    cases o.issued <;> simp
  have hclass : (e.isTrack || older.all fun o => !o.held) = true ↔ (e.cls ≠ .track → ∀ o ∈ older, o.issued = true) := by
    simp [HoldEntry.isTrack, HoldEntry.held, or_iff_not_imp_left]
  have htrack (o : HoldEntry) : o.isTrack = true ↔ o.cls = .track := decide_eq_true_iff
  have htrack' : e.isTrack = false ↔ e.cls ≠ .track := decide_eq_false_iff_not
  unfold State.eligible
  simp only [Bool.and_eq_true, List.all_eq_true, hheld, hclass, htrack, and_assoc, decide_eq_true_eq,
    Bool.not_eq_true', Bool.and_eq_false_iff, htrack', not_and_or, Bool.not_eq_true]
  exact and_congr (by simp [HoldEntry.held]) Iff.rfl

/-- The search stops at the first entry eligible over those before it. -/
theorem State.oldestEligible_iff {e : HoldEntry} : ∀ (l older : List HoldEntry),
    s.oldestEligible older l = some e ↔
      ∃ pre younger, l = pre ++ e :: younger ∧ s.eligible (older ++ pre) e = true
        ∧ ∀ p x q, pre = p ++ x :: q → s.eligible (older ++ p) x = false := by
  intro l
  induction l with
  | nil =>
    intro older
    refine ⟨nofun, ?_⟩
    rintro ⟨pre, younger, h, -⟩
    cases pre <;> cases h
  | cons a rest ih =>
    intro older
    rw [State.oldestEligible]
    cases ha : s.eligible older a
    · rw [if_neg Bool.false_ne_true, ih]
      constructor
      · rintro ⟨pre, younger, rfl, he, hpre⟩
        refine ⟨a :: pre, younger, rfl, ?_, ?_⟩
        · rwa [List.append_assoc] at he
        · intro p x q h
          cases p with
          | nil =>
            obtain ⟨rfl, -⟩ := List.cons_eq_cons.mp h
            rwa [List.append_nil]
          | cons b p =>
            obtain ⟨rfl, h'⟩ := List.cons_eq_cons.mp h
            have hfirst := hpre p x q h'
            rwa [List.append_assoc] at hfirst
      · rintro ⟨pre, younger, h, he, hpre⟩
        cases pre with
        | nil =>
          obtain ⟨rfl, -⟩ := List.cons_eq_cons.mp h
          rw [List.append_nil, ha] at he
          exact absurd he Bool.false_ne_true
        | cons b pre =>
          obtain ⟨rfl, rfl⟩ := List.cons_eq_cons.mp h
          refine ⟨pre, younger, rfl, ?_, fun p x q hp => ?_⟩
          · rwa [List.append_assoc]
          · rw [List.append_assoc]
            exact hpre (a :: p) x q (by rw [hp]; rfl)
    · rw [if_pos rfl, Option.some.injEq]
      constructor
      · rintro rfl
        exact ⟨[], rest, rfl, by rwa [List.append_nil], fun p x q h => by cases p <;> cases h⟩
      · rintro ⟨pre, younger, h, -, hpre⟩
        cases pre with
        | nil => exact (List.cons_eq_cons.mp h).1
        | cons b pre =>
          obtain ⟨rfl, -⟩ := List.cons_eq_cons.mp h
          have hfirst := hpre [] a pre rfl
          rw [List.append_nil, ha] at hfirst
          exact absurd hfirst.symm Bool.false_ne_true

theorem State.readEligible_iff :
    s.readEligible = true ↔
      ∃ p, s.hq.read = some p ∧ ∀ e ∈ s.hq.entries, e.issued = false → p.cls = .track ∧ e.block ≠ blockOf p.addr := by
  unfold State.readEligible
  cases s.hq.read with
  | none => simp
  | some p =>
    by_cases hc : p.cls = .track
    · simp [hc, HoldEntry.held, or_iff_not_imp_left]
    · simp [hc, HoldEntry.held]

theorem Context.ready_iff {c : Context} :
    c.ready = true ↔ c.state = .reading ∨ c.state = .writingPayload ∨ c.state = .writingHeader := by
  unfold Context.ready
  cases c.state <;> simp

theorem State.stands_master :
    s.stands .masterPath = true ↔ (∃ e, s.oldestEligible [] s.hq.entries = some e) ∨ s.readEligible = true := by
  rw [← Option.isSome_iff_exists]
  exact Iff.of_eq (Bool.or_eq_true ..)

/-- Settles O50: each request's own condition. -/
theorem requestsStandAsRuled : Obligations.RequestsStandAsRuled := by
  intro s barred
  refine ⟨fun older e => ?_, fun e => ?_, State.readEligible_iff, State.stands_master, ?_, ?_, ?_⟩
  · rw [State.eligible_iff, State.trackBarred_iff]
  · exact (State.oldestEligible_iff s.hq.entries []).trans (by simp)
  · simp [State.stands, and_assoc]
  · simp [State.stands]
  · have hready : (s.ce.contexts.any fun c => c.any (·.ready)) = true ↔ ∃ c, some c ∈ s.ce.contexts
        ∧ (c.state = .reading ∨ c.state = .writingPayload ∨ c.state = .writingHeader) := by
      rw [List.any_eq_true]
      constructor
      · rintro ⟨c, hc, hr⟩
        cases c with
        | none => cases hr
        | some c => exact ⟨c, hc, Context.ready_iff.mp hr⟩
      · rintro ⟨c, hc, hr⟩
        exact ⟨some c, hc, Context.ready_iff.mpr hr⟩
    rw [← hready]
    simp [State.stands]

/-! ## The arbiter's choice (R159, R160) -/

theorem State.arbitrate_of_calm {first : Requester} (hc : s.dp.calm = true) (h : s.stands first = true) :
    s.arbitrate first = some first := if_pos ⟨hc, h⟩

theorem State.arbitrate_of_pressed {first : Requester} (hc : s.dp.calm = false) : s.arbitrate first = s.priorityChoice :=
  if_neg fun h => Bool.false_ne_true (hc.symm.trans h.1)

/-- A granted request stands. -/
theorem State.priorityChoice_stands {g : Requester} (h : s.priorityChoice = some g) : s.stands g = true := by
  unfold State.priorityChoice at h
  split at h
  · rename_i hm
    cases h
    exact hm.1
  · split at h
    · cases h
      assumption
    · split at h
      · cases h
        assumption
      · split at h
        · cases h
          assumption
        · split at h
          · cases h
            assumption
          · cases h

theorem State.arbitrate_stands {first g : Requester} (h : s.arbitrate first = some g) : s.stands g = true := by
  unfold State.arbitrate at h
  split at h
  · rename_i hc
    cases h
    exact hc.2
  · exact State.priorityChoice_stands h

/-- The grant to the arbiter's choice, the fairness count after it. -/
theorem State.grant_of {first g : Requester} (hp : s.dp.port = none) (h : s.arbitrate first = some g) :
    s.grant first = s.grantTo g := by
  unfold State.grant
  rw [hp, h]
  rfl

theorem State.grantMaster_entry {e : HoldEntry} (h : s.oldestEligible [] s.hq.entries = some e) :
    s.grantMaster = some (({ s with hq := s.hq.issue e.order } : State).present (.masterWrite e.order) e.request) := by
  simp only [State.grantMaster, h]

theorem State.grantMaster_read {p : PendingRead} (h : s.oldestEligible [] s.hq.entries = none) (hr : s.readEligible = true)
    (hp : s.hq.read = some p) : s.grantMaster = some (s.present .masterRead p.request) := by
  simp only [State.grantMaster, h, hr, hp]
  rfl

/-- Settles O51: the busy port, the choice by calm, fairness and priority, the grants, and the reissue. -/
theorem grantAndReissue : Obligations.GrantAndReissue := by
  intro s first hrun
  have hwith (n : Nat) (l older : List HoldEntry) :
      ({ s with dp := { s.dp with fairness := n } } : State).oldestEligible older l = s.oldestEligible older l :=
    State.oldestEligible_congr (s := s) (by rfl) l older
  refine ⟨fun hp => claim_none (if_pos hp), fun hc => ?_, fun hc h => State.arbitrate_of_calm hc h,
    fun e hp hg he => ?_, fun p hp hg he hr => ?_, fun o rest hp hg hw => ?_, fun a f hp hlt => ?_,
    fun a f hp hle => ?_⟩
  · rw [State.arbitrate_of_pressed hc]
    unfold State.priorityChoice
    refine ⟨fun hm hf => if_pos ⟨hm, hf⟩, fun h => ?_⟩
    rw [if_neg fun h' => h.elim (fun hm => Bool.false_ne_true (hm.symm.trans h'.1)) fun hf => hf h'.2]
    refine ⟨fun hl => if_pos hl, fun hl hr => ?_, fun hl hr hce => ?_, fun hl hr hce hm => ?_⟩
    · rw [if_neg (by simp [hl]), if_pos hr]
    · rw [if_neg (by simp [hl]), if_neg (by simp [hr]), if_pos hce]
    · rw [if_neg (by simp [hl]), if_neg (by simp [hr]), if_neg (by simp [hce]), if_pos hm]
  · refine claim_some hrun ((State.grant_of hp hg).trans ?_)
    exact (State.grantMaster_entry ((hwith 0 _ _).trans he)).trans rfl
  · refine claim_some hrun ((State.grant_of hp hg).trans ?_)
    have hread : s.readEligible = true := by
      rcases State.stands_master.mp (State.arbitrate_stands hg) with ⟨e, h⟩ | h
      · rw [he] at h
        cases h
      · exact h
    exact (State.grantMaster_read ((hwith 0 _ _).trans he) hread hr).trans rfl
  · refine claim_some hrun ((State.grant_of hp hg).trans ?_)
    simp only [State.grantTo, State.grantLc, hw]
    rfl
  · exact claim_some hrun (by simp only [State.reissue, hp, if_pos hlt])
  · exact claim_none (by simp only [State.reissue, hp, if_neg (Nat.not_lt.mpr hle)])

/-! ## What LC, RE and CE present (R18, R84, R85, R122, R139, R161) -/

/-- The ready context found is one of the list, at its number. -/
theorem nearestReady_mem {n tail : Nat} {j : Nat} {x : Context} : ∀ (contexts : List (Option Context)) (k : Nat),
    nearestReady n tail k contexts = some (j, x) →
      ∃ m, j = k + m ∧ contexts[m]? = some (some x) ∧ x.ready = true := by
  intro contexts
  induction contexts with
  | nil => exact fun k h => nomatch h
  | cons a rest ih =>
    intro k h
    have hrest (h : nearestReady n tail (k + 1) rest = some (j, x)) :
        ∃ m, j = k + m ∧ (a :: rest)[m]? = some (some x) ∧ x.ready = true := by
      obtain ⟨m, rfl, hm, hr⟩ := ih (k + 1) h
      exact ⟨m + 1, by omega, hm, hr⟩
    cases a with
    | none => exact hrest h
    | some c =>
      rw [nearestReady] at h
      cases hfound : nearestReady n tail (k + 1) rest with
      | none =>
        simp only [hfound] at h
        split at h
        · rename_i hready
          cases h
          exact ⟨0, rfl, rfl, hready⟩
        · cases h
      | some p =>
        obtain ⟨i, d⟩ := p
        simp only [hfound] at h
        split at h
        · rename_i hready
          cases h
          exact ⟨0, rfl, rfl, (Bool.and_eq_true_iff.mp hready).1⟩
        · cases h
          exact hrest hfound

/-- The ready context strictly nearest to tail is the one found. -/
theorem nearestReady_of {n tail : Nat} {c : Context} (hc : c.ready = true) : ∀ (contexts : List (Option Context)) (k i : Nat),
    contexts[i]? = some (some c) →
    (∀ (j : Nat) (x : Context), j ≠ i → contexts[j]? = some (some x) → x.ready = true →
      ringDistance n tail c.slot < ringDistance n tail x.slot) →
    nearestReady n tail k contexts = some (k + i, c) := by
  intro contexts
  induction contexts with
  | nil => exact fun k i h => nomatch h
  | cons a rest ih =>
    intro k i hi hother
    cases i with
    | zero =>
      cases hi
      rw [nearestReady]
      cases hfound : nearestReady n tail (k + 1) rest with
      | none =>
        simp only
        exact if_pos hc
      | some p =>
        obtain ⟨j, x⟩ := p
        obtain ⟨m, -, hm, hr⟩ := nearestReady_mem rest (k + 1) hfound
        have hlt := hother (m + 1) x (Nat.succ_ne_zero m) hm hr
        simp only
        exact if_pos (by simp [hc, Nat.le_of_lt hlt])
    | succ i =>
      have hfound : nearestReady n tail (k + 1) rest = some (k + 1 + i, c) :=
        ih (k + 1) i hi fun j x hj hx hr => hother (j + 1) x (by omega) hx hr
      have hnumber : k + 1 + i = k + (i + 1) := by omega
      rw [hnumber] at hfound
      cases a with
      | none => exact hfound
      | some d =>
        rw [nearestReady]
        simp only [hfound]
        refine if_neg fun h => ?_
        obtain ⟨hr, hle⟩ := Bool.and_eq_true_iff.mp h
        have hlt := hother 0 d (Nat.succ_ne_zero i).symm rfl hr
        exact Nat.not_le.mpr hlt (of_decide_eq_true hle)

theorem LogState.reservedSequence_eq (lc : LogState) (slot : Nat) :
    lc.reservedSequence slot = ((lc.reservation slot).map Reservation.sequence).getD 0 := by
  unfold LogState.reservedSequence
  cases lc.reservation slot <;> rfl

/-- Settles O52: the LC by its oldest write or its attach read, the RE by its handling, the CE by its nearest context's
state. -/
theorem logAndRestoreGrants : Obligations.LogAndRestoreGrants := by
  intro s first hrun hp header payload presents
  have hgrant {g : Requester} {t : State} (hg : s.arbitrate first = some g) (h : s.grantTo g = some t) :
      exec (.downstreamGrant first) s = .next (finish s t) := claim_some hrun ((State.grant_of hp hg).trans h)
  refine ⟨fun hg => ⟨fun slot e rest he => ?_, fun hw => ⟨fun h => ?_, fun a h => ?_, fun h => ?_, fun h' h => ?_⟩⟩,
    fun hg => ⟨fun h => ?_, fun h' h => ?_, fun a d h => ?_⟩, fun i c hg hi hother => ?_⟩
  · intro record t
    refine ⟨fun hw => hgrant hg ?_, fun hw => hgrant hg ?_⟩ <;>
      (simp only [State.grantTo, State.grantLc, hw, he, Option.map_some]; rfl)
  · exact hgrant hg (by simp only [State.grantTo, State.grantLc, hw, h]; rfl)
  · exact hgrant hg (by simp only [State.grantTo, State.grantLc, hw, h]; rfl)
  · exact hgrant hg (by simp only [State.grantTo, State.grantLc, hw, h]; rfl)
  · exact hgrant hg (by simp only [State.grantTo, State.grantLc, hw, h]; rfl)
  · exact hgrant hg (by simp only [State.grantTo, State.grantRe, h]; rfl)
  · exact hgrant hg (by simp only [State.grantTo, State.grantRe, h]; rfl)
  · exact hgrant hg (by simp only [State.grantTo, State.grantRe, h]; rfl)
  · have hnearest (hr : c.ready = true) : nearestReady s.log.slots s.lc.tail 0 s.ce.contexts = some (i, c) := by
      rw [nearestReady_of hr s.ce.contexts 0 i hi fun j x hj hx hx' => hother j x hj hx (Context.ready_iff.mp hx'),
        Nat.zero_add]
    refine ⟨fun h => ?_, fun h => ?_, fun h => ?_⟩
    · have hn := hnearest (Context.ready_iff.mpr (.inl h))
      exact hgrant hg (by simp only [State.grantTo, State.grantCe, hn, h]; rfl)
    · have hn := hnearest (Context.ready_iff.mpr (.inr (.inl h)))
      exact hgrant hg (by simp only [State.grantTo, State.grantCe, hn, h]; rfl)
    · have hn := hnearest (Context.ready_iff.mpr (.inr (.inr h)))
      intro record
      refine hgrant hg ?_
      simp only [State.grantTo, State.grantCe, hn, h, LogState.reservedSequence_eq]
      rfl

end

end Sys2Proof.Machine

/-! SUPPORT. The part at work on epochs: what ONLINE and FENCED promise, as one predicate, and which of the shared
operations keep it, the stack's order, the ring's bounds and the operation in progress. -/

namespace Sys2Proof.Machine

/-! ## What is kept in ONLINE and FENCED -/

/-- The controller of a part that is ONLINE, at which it is read what ONLINE and FENCED allow. -/
def Controller.onlineAtReset : Controller := { Controller.reset with mode := .online }

/-- A write of the LC that ONLINE and FENCED allow (`LogWrite.fits_of_active`). -/
def LogWrite.epochal (w : LogWrite) : Bool := w.fits .onlineAtReset

/-- A request that ONLINE and FENCED allow (`Owner.fits_of_active`). -/
def Owner.epochal (o : Owner) : Bool := o.fits .onlineAtReset

theorem AnchorOccasion.fits_congr {a b : Controller} (h : a.mode = b.mode) (o : AnchorOccasion) :
    o.fits a = o.fits b := by
  cases o <;> simp only [AnchorOccasion.fits, Controller.active, h]

theorem LogWrite.fits_congr {a b : Controller} (h : a.mode = b.mode) (w : LogWrite) : w.fits a = w.fits b := by
  cases w <;> simp only [LogWrite.fits, Controller.active, AnchorOccasion.fits_congr h, h]

theorem Owner.fits_congr {a b : Controller} (h : a.mode = b.mode) (o : Owner) : o.fits a = o.fits b := by
  cases o <;> simp only [Owner.fits, Controller.active, AnchorOccasion.fits_congr h, h]

theorem Controller.active_iff {oc : Controller} : oc.active = true ↔ oc.mode = .online ∨ oc.mode = .fenced := by
  simp [Controller.active]

theorem Controller.active_congr {a b : Controller} (h : a.mode = b.mode) : a.active = b.active := by
  simp only [Controller.active, h]

theorem AnchorOccasion.fits_of_active {oc : Controller} (h : oc.active = true) (o : AnchorOccasion) :
    o.fits oc = o.fits .onlineAtReset := by
  rcases Controller.active_iff.mp h with hm | hm
  · exact AnchorOccasion.fits_congr hm o
  · cases o <;> simp [AnchorOccasion.fits, Controller.active, Controller.onlineAtReset, hm]

theorem LogWrite.fits_of_active {oc : Controller} (h : oc.active = true) (w : LogWrite) : w.fits oc = w.epochal := by
  cases w
  case anchor o => exact AnchorOccasion.fits_of_active h o
  all_goals exact h

theorem Owner.fits_of_active {oc : Controller} (h : oc.active = true) (o : Owner) : o.fits oc = o.epochal := by
  cases o
  case lcAnchor job => exact AnchorOccasion.fits_of_active h job.occasion
  all_goals
    rcases Controller.active_iff.mp h with hm | hm <;>
      simp [Owner.fits, Owner.epochal, hm, Controller.onlineAtReset, Controller.active]

/-- The part works on epochs: it is ONLINE or FENCED, and all that these modes promise holds (`orderly_iff_epochsFit`).
-/
structure State.epochsFit (s : State) : Prop where
  active : s.oc.active = true
  attach : s.oc.attach = none
  fence : s.oc.fence = .none ↔ s.oc.mode ≠ .fenced
  slots : s.log.slots ≠ 0
  heldLog : ∀ e ∈ s.hq.entries, e.cls = .log → e.issued = true
  notScanning : s.re.stage ≠ .scanning
  purpose : s.re.stage ≠ .idle → s.re.purpose ≠ .recovery
  rolling : s.oc.op = .rolling ∨ s.oc.op = .halted → s.re.stage ≠ .idle
  writes : ∀ w ∈ s.lc.writes, w.epochal = true
  port : ∀ a ∈ s.dp.port, a.owner.epochal = true
  attachRead : s.lc.attachRead = .none

theorem Controller.mode_of_active {oc : Controller} (h : oc.active = true) :
    oc.mode ≠ .offline ∧ oc.mode ≠ .attaching ∧ oc.mode ≠ .suspect ∧ oc.mode ≠ .recovering := by
  rcases Controller.active_iff.mp h with hm | hm <;> rw [hm] <;> decide

theorem State.portAll_iff {s : State} {p : ActiveRequest → Bool} :
    s.dp.port.all p = true ↔ ∀ a ∈ s.dp.port, p a = true := by
  cases s.dp.port <;> simp

/-- In ONLINE and FENCED a part is orderly where this holds. -/
theorem State.orderly_iff_epochsFit {s : State} (h : s.oc.active = true) : s.orderly ↔ s.epochsFit := by
  obtain ⟨hoff, hatt, hsus, hrec⟩ := Controller.mode_of_active h
  constructor
  · rintro ⟨⟨hattach, hfence, -, hslots, hlog⟩, hstage, hwrites, hport, hread, -, -⟩
    refine ⟨h, hattach.mpr hatt, hfence, hslots hoff, hlog hoff, (hstage.2.2.1 h).1, (hstage.2.2.1 h).2, hstage.2.2.2,
      fun w hw => ?_, fun a ha => ?_, ?_⟩
    · exact (LogWrite.fits_of_active h w).symm.trans (hwrites w hw)
    · exact (Owner.fits_of_active h a.owner).symm.trans (State.portAll_iff.mp hport a ha)
    · by_contra hne
      exact hatt (hread hne)
  · intro hf
    refine ⟨⟨?_, hf.fence, fun hno => ?_, fun _ => hf.slots, fun _ => hf.heldLog⟩, ⟨?_, ?_, ?_, hf.rolling⟩, ?_, ?_, ?_,
      fun hm => absurd hm hatt, fun hm => absurd hm hrec⟩
    · exact ⟨fun _ => hatt, fun _ => hf.attach⟩
    · rw [h] at hno
      cases hno
    · rintro (hm | hm | hm)
      · exact absurd hm hoff
      · exact absurd hm hatt
      · exact absurd hm hsus
    · exact fun hm => absurd hm hrec
    · exact fun _ => ⟨hf.notScanning, hf.purpose⟩
    · exact fun w hw => (LogWrite.fits_of_active h w).trans (hf.writes w hw)
    · exact State.portAll_iff.mpr fun a ha => (Owner.fits_of_active h a.owner).trans (hf.port a ha)
    · exact fun hne => absurd hf.attachRead hne

/-- The ring's counts (R26). -/
def State.ringFits (s : State) : Prop := s.lc.durable ≤ s.lc.live ∧ s.lc.live ≤ s.log.slots

/-- In ONLINE and FENCED no scan runs, so the ring is bounded where its counts are. -/
theorem State.ringBounded_iff_ringFits {s : State} (h : s.epochsFit) : s.ringBounded ↔ s.ringFits := by
  obtain ⟨-, -, -, hrec⟩ := Controller.mode_of_active h.active
  constructor
  · exact fun hr => ⟨hr.1, hr.2.1⟩
  · refine fun hr => ⟨hr.1, hr.2, ?_, fun hm => absurd hm hrec⟩
    rintro (hst | ⟨hm, -⟩)
    · exact absurd hst h.notScanning
    · exact absurd hm hrec

/-! ## Steps at work on epochs -/

/-- From `s` to `t` what ONLINE and FENCED promise, the stack's order and the ring's counts are kept. -/
structure EpochStep (s t : State) : Prop where
  fits : s.epochsFit → t.epochsFit
  stack : s.epochsFit → s.stackOrdered → t.stackOrdered
  ring : s.epochsFit → s.ringFits → t.ringFits

/-- A step beside the operation in progress: it keeps that too. -/
structure Beside (s t : State) : Prop extends EpochStep s t where
  operation : s.epochsFit → s.operationFits → t.operationFits

theorem EpochStep.refl (s : State) : EpochStep s s := ⟨id, fun _ => id, fun _ => id⟩

theorem EpochStep.trans {s t u : State} (h : EpochStep s t) (h' : EpochStep t u) : EpochStep s u :=
  ⟨fun hs => h'.fits (h.fits hs), fun hs ho => h'.stack (h.fits hs) (h.stack hs ho),
    fun hs hr => h'.ring (h.fits hs) (h.ring hs hr)⟩

theorem Beside.refl (s : State) : Beside s s := ⟨.refl s, fun _ => id⟩

theorem Beside.trans {s t u : State} (h : Beside s t) (h' : Beside t u) : Beside s u :=
  ⟨h.toEpochStep.trans h'.toEpochStep, fun hs ho => h'.operation (h.fits hs) (h.operation hs ho)⟩

/-- What those promises, the order, the counts and the operation read of the state. -/
def State.core (s : State) : LogConfig × List HoldEntry × LogState × RestoreEngine × Option ActiveRequest × Mode
    × FenceReason × Option Attach × OpState × OpPhase × List Level × Option Successor :=
  (s.log, s.hq.entries, s.lc, s.re, s.dp.port, s.oc.mode, s.oc.fence, s.oc.attach, s.oc.op, s.oc.phase, s.oc.stack,
    s.oc.successor)

/-- The anchor a write of the LC's queue is for. -/
def LogWrite.occasion : LogWrite → Option AnchorOccasion
  | .anchor o => some o
  | _ => none

/-- The anchor a request in flight is for. -/
def Owner.occasion : Owner → Option AnchorOccasion
  | .lcAnchor job => some job.occasion
  | _ => none

theorem State.anchorsDue_eq (s : State) :
    s.anchorsDue =
      (s.dp.port.toList.filterMap fun a => a.owner.occasion) ++ s.lc.writes.filterMap LogWrite.occasion := rfl

theorem AnchorOccasion.awaited_congr {s t : State} (hp : t.oc.phase = s.oc.phase) (ho : t.oc.op = s.oc.op)
    (hst : t.re.stage = s.re.stage) (o : AnchorOccasion) : o.awaited t ↔ o.awaited s := by
  cases o <;> simp only [AnchorOccasion.awaited, hp, ho, hst]

/-- The markers of the stack's levels, as the phase wants them, read off the list of their bits. -/
def OpPhase.markersWanted (phase : OpPhase) (bits : List Bool) : Prop :=
  match phase with
  | .openWait => ∃ base, bits = base ++ [false] ∧ ∀ b ∈ base, b = true
  | .openMarker => ∃ base, bits = base ++ [false] ∧ ∀ b ∈ base, b = true
  | .rotateLateMarker _ => bits = [false]
  | _ => ∀ b ∈ bits, b = true

theorem State.markersFit_iff (s : State) :
    s.markersFit ↔ s.oc.phase.markersWanted (s.oc.stack.map Level.durable) := by
  have hinner : (∃ base l, s.oc.stack = base ++ [l] ∧ l.durable = false ∧ ∀ x ∈ base, x.durable = true) ↔
      ∃ base, s.oc.stack.map Level.durable = base ++ [false] ∧ ∀ b ∈ base, b = true := by
    constructor
    · rintro ⟨base, l, hst, hl, hbase⟩
      refine ⟨base.map Level.durable, by rw [hst]; simp [hl], fun b hb => ?_⟩
      obtain ⟨x, hx, rfl⟩ := List.mem_map.mp hb
      exact hbase x hx
    · rintro ⟨base, hmap, hbase⟩
      obtain ⟨ls, ms, hst, hls, hms⟩ := List.map_eq_append_iff.mp hmap
      obtain ⟨l, rest, rfl, hl, hrest⟩ := List.map_eq_cons_iff.mp hms
      obtain rfl := List.map_eq_nil_iff.mp hrest
      exact ⟨ls, l, hst, hl, fun x hx => hbase _ (hls ▸ List.mem_map_of_mem hx)⟩
  have hlate : (∃ l, s.oc.stack = [l] ∧ l.durable = false) ↔ s.oc.stack.map Level.durable = [false] := by
    rw [List.map_eq_singleton_iff]
  have hall : (∀ x ∈ s.oc.stack, x.durable = true) ↔ ∀ b ∈ s.oc.stack.map Level.durable, b = true := by
    simp
  unfold State.markersFit OpPhase.markersWanted
  cases s.oc.phase
  case openWait | openMarker => exact hinner
  case rotateLateMarker => exact hlate
  all_goals exact hall

/-- The operation in progress reads: phase, operation, stage and mode; the durable markers of the stack; the anchors and
markers due. -/
theorem State.operationFits_congr {s t : State} (h : s.operationFits) (hp : t.oc.phase = s.oc.phase)
    (ho : t.oc.op = s.oc.op) (hst : t.re.stage = s.re.stage) (hact : t.oc.active = true → s.oc.active = true)
    (hs : t.oc.stack.map Level.durable = s.oc.stack.map Level.durable)
    (ha : t.anchorsDue.Sublist s.anchorsDue)
    (hm : ∃ f : Reservation → Reservation, (∀ r, (f r).level = r.level) ∧ t.markersDue = s.markersDue.map f) :
    t.operationFits := by
  obtain ⟨hphase, hmark, hstage, hlen, hawait, hmlen, hmdue⟩ := h
  obtain ⟨f, hf, hmap⟩ := hm
  have hlevels : t.oc.stack.length = s.oc.stack.length := by
    simpa only [List.length_map] using congrArg List.length hs
  refine ⟨by rw [hp, ho]; exact hphase, ?_, fun hac => ?_,
    Nat.le_trans ha.length_le hlen, fun o hmem => ?_, by rw [hmap, List.length_map]; exact hmlen, fun r hr => ?_⟩
  · rw [State.markersFit_iff] at hmark ⊢
    rw [hp, hs]
    exact hmark
  · rw [hst, ho]
    exact hstage (hact hac)
  · exact (AnchorOccasion.awaited_congr hp ho hst o).mpr (hawait o (ha.subset hmem))
  · rw [hmap] at hr
    obtain ⟨q, hq, rfl⟩ := List.mem_map.mp hr
    rw [hp, hlevels, hf]
    exact hmdue q hq

theorem State.stackOrdered_congr {s t : State} (h : s.stackOrdered)
    (hs : (t.oc.stack.map Level.serial).Sublist (s.oc.stack.map Level.serial))
    (hx : ∀ x ∈ t.oc.successor, ∃ y ∈ s.oc.successor, y.serial = x.serial)
    (hn : t.lc.nextSerial = s.lc.nextSerial) : t.stackOrdered := by
  obtain ⟨hlen, hpair, hserial, hsucc⟩ := h
  have hpair' : (s.oc.stack.map Level.serial).Pairwise fun a b => a.toNat < b.toNat := by
    rw [List.pairwise_map]
    exact hpair
  refine ⟨?_, ?_, fun l hl => ?_, fun x hxt => ?_⟩
  · have := hs.length_le
    rw [List.length_map, List.length_map] at this
    exact Nat.le_trans this hlen
  · have := hpair'.sublist hs
    rwa [List.pairwise_map] at this
  · obtain ⟨m, hm, hml⟩ := List.mem_map.mp (hs.subset (List.mem_map_of_mem hl))
    rw [hn, ← hml]
    exact hserial m hm
  · obtain ⟨y, hy, hyx⟩ := hx x hxt
    rw [hn, ← hyx]
    exact hsucc y hy

/-- A step that leaves all of it alone. -/
theorem Beside.same {s t : State} (h : t.core = s.core) : Beside s t := by
  simp only [State.core, Prod.mk.injEq] at h
  obtain ⟨hlog, hhq, hlc, hre, hport, hmode, hfence, hattach, hop, hphase, hstack, hsucc⟩ := h
  have hact : t.oc.active = s.oc.active := Controller.active_congr hmode
  refine ⟨⟨fun hs => ?_, fun _ hs => ?_, fun _ hs => ?_⟩, fun _ hs => ?_⟩
  · exact ⟨hact ▸ hs.active, hattach ▸ hs.attach, by rw [hfence, hmode]; exact hs.fence, hlog ▸ hs.slots,
      hhq ▸ hs.heldLog, hre ▸ hs.notScanning, hre ▸ hs.purpose, by rw [hop, hre]; exact hs.rolling, hlc ▸ hs.writes,
      hport ▸ hs.port, hlc ▸ hs.attachRead⟩
  · refine State.stackOrdered_congr hs (by rw [hstack]) (fun x hx => ⟨x, hsucc ▸ hx, rfl⟩) (by rw [hlc])
  · unfold State.ringFits
    rw [hlc, hlog]
    exact hs
  · refine State.operationFits_congr hs hphase hop (by rw [hre]) (fun h => hact ▸ h)
      (by rw [hstack]) ?_ ⟨id, fun _ => rfl, ?_⟩
    · simp only [State.anchorsDue_eq, hport, hlc, List.Sublist.refl]
    · simp only [State.markersDue, hlc, List.map_id]

theorem EpochStep.same {s t : State} (h : t.core = s.core) : EpochStep s t := (Beside.same h).toEpochStep

/-! ## Shared operations beside the operation in progress -/

namespace Beside

/-- The hold queue alone changes, and no HELD entry of class LOG is new. -/
theorem entries {s t : State} (h : ({ t with hq := s.hq } : State).core = s.core)
    (hq : ∀ e ∈ t.hq.entries, e.cls = .log → ∃ x ∈ s.hq.entries, x.cls = .log ∧ (x.issued = true → e.issued = true)) :
    Beside s t := by
  have hsame : Beside s { t with hq := s.hq } := same h
  refine ⟨⟨fun hs => ?_, hsame.stack, hsame.ring⟩, hsame.operation⟩
  obtain ⟨h1, h2, h3, h4, -, h6, h7, h8, h9, h10, h11⟩ := hsame.fits hs
  refine ⟨h1, h2, h3, h4, fun e he hlog => ?_, h6, h7, h8, h9, h10, h11⟩
  obtain ⟨x, hx, hcls, hissued⟩ := hq e he hlog
  exact hissued (hs.heldLog x hx hcls)

theorem entries_mapped {s t : State} {f : HoldEntry → HoldEntry} (h : ({ t with hq := s.hq } : State).core = s.core)
    (hq : t.hq.entries = s.hq.entries.map f) (hf : ∀ e, (f e).cls = e.cls ∧ (e.issued = true → (f e).issued = true)) :
    Beside s t := by
  refine entries h fun e he hlog => ?_
  rw [hq] at he
  obtain ⟨x, hx, rfl⟩ := List.mem_map.mp he
  exact ⟨x, hx, (hf x).1.symm.trans hlog, (hf x).2⟩

theorem entries_kept {s t : State} (h : ({ t with hq := s.hq } : State).core = s.core)
    (hq : t.hq.entries ⊆ s.hq.entries) : Beside s t :=
  entries h fun e he hlog => ⟨e, hq he, hlog, id⟩

/-- The levels alone change, and neither serials nor markers. -/
theorem levels {s t : State} (h : ({ t with oc := { t.oc with stack := s.oc.stack } } : State).core = s.core)
    (hserial : t.oc.stack.map Level.serial = s.oc.stack.map Level.serial)
    (hdurable : t.oc.stack.map Level.durable = s.oc.stack.map Level.durable) : Beside s t := by
  let u : State := { t with oc := { t.oc with stack := s.oc.stack } }
  have hsame : Beside s u := same h
  have hstack : Beside u t := by
    refine ⟨⟨fun hf => ?_, fun _ ho => ?_, fun _ hr => hr⟩, fun _ ho => ?_⟩
    · obtain ⟨h1, h2, h3, h4, h5, h6, h7, h8, h9, h10, h11⟩ := hf
      exact ⟨h1, h2, h3, h4, h5, h6, h7, h8, h9, h10, h11⟩
    · exact State.stackOrdered_congr ho (by rw [hserial]) (fun x hx => ⟨x, hx, rfl⟩) rfl
    · exact State.operationFits_congr ho rfl rfl rfl id hdurable (List.Sublist.refl _)
        ⟨id, fun _ => rfl, (List.map_id _).symm⟩
  exact hsame.trans hstack

/-- The log's reservations change in their state alone, captures may be added to them, and void headers to the writes.
-/
theorem reservations {s t : State} {f : Reservation → Reservation} {ws : List LogWrite}
    (h : ({ t with lc := s.lc } : State).core = s.core)
    (hf : ∀ r, (f r).level = r.level ∧ (f r).purpose = r.purpose) (hr : t.lc.reservations = s.lc.reservations.map f)
    (hw : t.lc.writes = s.lc.writes ++ ws) (hws : ∀ w ∈ ws, ∃ slot, w = .voidHeader slot)
    (hcounts : t.lc.durable = s.lc.durable ∧ t.lc.live = s.lc.live ∧ t.lc.nextSerial = s.lc.nextSerial
      ∧ t.lc.attachRead = s.lc.attachRead) : Beside s t := by
  have hsame : Beside s { t with lc := s.lc } := same h
  obtain ⟨hdurable, hlive, hnext, hread⟩ := hcounts
  have hvoid : ws.filterMap LogWrite.occasion = [] := by
    rw [List.filterMap_eq_nil_iff]
    intro w hmem
    obtain ⟨slot, rfl⟩ := hws w hmem
    rfl
  refine ⟨⟨fun hs => ?_, fun hs ho => ?_, fun hs hring => ?_⟩, fun hs ho => ?_⟩
  · obtain ⟨h1, h2, h3, h4, h5, h6, h7, h8, h9, h10, h11⟩ := hsame.fits hs
    refine ⟨h1, h2, h3, h4, h5, h6, h7, h8, fun w hmem => ?_, h10, hread.trans hs.attachRead⟩
    rw [hw] at hmem
    rcases List.mem_append.mp hmem with hmem | hmem
    · exact hs.writes w hmem
    · obtain ⟨slot, rfl⟩ := hws w hmem
      rfl
  · have hstack := hsame.stack hs ho
    unfold State.stackOrdered at hstack ⊢
    rw [hnext]
    exact hstack
  · have hr' := hsame.ring hs hring
    unfold State.ringFits at hr' ⊢
    rw [hdurable, hlive]
    exact hr'
  · refine State.operationFits_congr (hsame.operation hs ho) rfl rfl rfl id rfl ?_ ⟨f, fun r => (hf r).1, ?_⟩
    · simp only [State.anchorsDue_eq, hw, List.filterMap_append, hvoid, List.append_nil, List.Sublist.refl]
    · simp only [State.markersDue, hr]
      rw [List.filter_map]
      have hpurpose : ((fun r : Reservation => decide (r.purpose = .marker)) ∘ f)
          = fun r : Reservation => decide (r.purpose = .marker) := funext fun r => by simp [(hf r).2]
      rw [hpurpose]

/-- A slot is reserved for a capture (R27). -/
theorem reserveCapture {s : State} (k : Nat) (w : Word32) (h : s.slotAnswer = .granted) :
    Beside s (s.reserve .capture k w) := by
  have hlive : s.lc.live ≠ s.log.slots := by
    unfold State.slotAnswer at h
    split at h
    · cases h
    · split at h
      · cases h
      · assumption
  rw [State.reserve_eq]
  refine ⟨⟨fun hs => ?_, fun hs ho => ?_, fun hs hring => ?_⟩, fun hs ho => ?_⟩
  · obtain ⟨h1, h2, h3, h4, h5, h6, h7, h8, h9, h10, h11⟩ := hs
    exact ⟨h1, h2, h3, h4, h5, h6, h7, h8, h9, h10, h11⟩
  · exact ho
  · obtain ⟨h1, h2⟩ := hring
    exact ⟨Nat.le_succ_of_le h1, Nat.lt_of_le_of_ne h2 hlive⟩
  · refine State.operationFits_congr ho rfl rfl rfl id rfl (List.Sublist.refl _)
      ⟨id, fun _ => rfl, ?_⟩
    simp [State.markersDue]

theorem raise (s : State) (k : EventKind) (n : Nat) (c : Condition) (w a : Word32) : Beside s (s.raise k n c w a) :=
  same rfl

theorem discardHeld (s : State) (p : HoldEntry → Bool) : Beside s (s.discardHeld p) := by
  refine entries_kept (by simp [State.core]) ?_
  rw [State.discardHeld_hq]
  exact List.filter_subset_self _

theorem restamp (s : State) (old new : Word32) : Beside s (s.restamp old new) := by
  refine entries_mapped (f := fun e => e.restamp old new) rfl rfl fun e => ?_
  unfold HoldEntry.restamp
  split <;> exact ⟨rfl, id⟩

theorem setCapture (s : State) (n : Nat) (c : CaptureState) : Beside s (s.setCapture n c) := by
  refine entries_mapped (f := fun e => if e.order = n then { e with capture := c } else e) rfl rfl fun e => ?_
  split <;> exact ⟨rfl, id⟩

theorem slotDurable (s : State) (slot : Nat) : Beside s (s.slotDurable slot) := by
  refine entries_mapped (f := fun e => if e.capture = .depends slot then { e with capture := .free } else e) rfl rfl
    fun e => ?_
  split <;> exact ⟨rfl, id⟩

theorem breakAll (s : State) (c : Condition) (a : Word32) : Beside s (s.breakAll c a) := by
  have hframe := raiseBroken_onlyChanges c a s.oc.stack 1 s
  have hre : (s.breakAll c a).re.stage = s.re.stage ∧ (s.breakAll c a).re.purpose = s.re.purpose := by
    have hre' : (raiseBroken c a 1 s.oc.stack s).re = s.re := hframe .re (by decide)
    have hstage : (raiseBroken c a 1 s.oc.stack s).re.stage = s.re.stage := by rw [hre']
    have hpurpose : (raiseBroken c a 1 s.oc.stack s).re.purpose = s.re.purpose := by rw [hre']
    exact ⟨hstage, hpurpose⟩
  let u : State := { s.breakAll c a with re := s.re }
  have hframe' := s.breakAll_onlyChanges c a
  have hu : Beside s u := by
    refine levels ?_ ?_ ?_
    · simp only [State.core, u, State.breakAll_oc]
      rw [hframe' .log (by decide), hframe' .hq (by decide), hframe' .lc (by decide), hframe' .port (by decide)]
    all_goals simp only [u, State.breakAll_oc, List.map_map]; rfl
  have hlast : Beside u (s.breakAll c a) := by
    refine ⟨⟨fun hs => ?_, fun _ ho => ho, fun _ hr => hr⟩, fun _ ho => ?_⟩
    · obtain ⟨h1, h2, h3, h4, h5, h6, h7, h8, h9, h10, h11⟩ := hs
      exact ⟨h1, h2, h3, h4, h5, hre.1 ▸ h6, by rw [hre.1, hre.2]; exact h7, by rw [hre.1]; exact h8, h9, h10, h11⟩
    · exact State.operationFits_congr ho rfl rfl hre.1 id rfl (List.Sublist.refl _)
        ⟨id, fun _ => rfl, (List.map_id _).symm⟩
  exact hu.trans hlast

theorem map_modify_of_eq {α β : Type} {g : α → β} {f : α → α} (h : ∀ a, g (f a) = g a) (l : List α) (n : Nat) :
    (l.modify n f).map g = l.map g := by
  refine List.ext_getElem (by simp) fun i hi hj => ?_
  simp only [List.getElem_map, List.getElem_modify]
  split
  · exact h _
  · rfl

/-- A level's count or bits other than its marker change. -/
theorem setLevel (s : State) (k : Nat) (f : Level → Level) (hs : ∀ l, (f l).serial = l.serial)
    (hd : ∀ l, (f l).durable = l.durable) : Beside s (s.setLevel k f) := by
  refine levels rfl ?_ ?_ <;> rw [State.setLevel_oc] <;> dsimp only <;> split
  · rfl
  · exact map_modify_of_eq hs _ _
  · rfl
  · exact map_modify_of_eq hd _ _

/-! ## Consideration -/

theorem insert (s : State) (b : Addr) (k : Nat) : Beside s (s.insert b k) := same rfl

theorem beginEpisode (s : State) (e : HoldEntry) (k : Nat) : Beside s (s.beginEpisode e k) := by
  unfold State.beginEpisode
  split
  · exact refl s
  · exact same rfl

theorem noSlot (s : State) (e : HoldEntry) (k : Nat) : Beside s (s.noSlot e k) := by
  unfold State.noSlot
  split
  · exact (setCapture s _ _).trans (beginEpisode _ _ _)
  · exact (insert s _ _).trans ((breakAll _ _ _).trans ((setCapture _ _ _).trans (beginEpisode _ _ _)))

theorem startCapture {s : State} (e : HoldEntry) (k i : Nat) (h : s.slotAnswer = .granted) :
    Beside s (s.startCapture e k i) := by
  have hctx : ∀ (u : State) (cs : List (Option Context)), Beside u { u with ce := { u.ce with contexts := cs } } :=
    fun _ _ => same rfl
  exact (reserveCapture k e.stamp h).trans ((insert _ _ _).trans ((hctx _ _).trans (setCapture _ _ _)))

theorem considerAt (s : State) (e : HoldEntry) (k : Nat) : Beside s (s.considerAt e k) := by
  unfold State.considerAt
  split
  · split <;> exact setCapture s _ _
  · split
    · split
      · exact (insert s _ _).trans (setCapture _ _ _)
      · exact (insert s _ _).trans (setCapture _ _ _)
      · exact setCapture s _ _
    · unfold State.needCapture
      split
      · exact noSlot s e k
      · split
        · exact setCapture s _ _
        · split
          · exact refl s
          · split
            · exact setCapture s _ _
            · exact noSlot s e k
            · exact startCapture e k _ (by assumption)

/-! ## Completed and failed writes -/

theorem portFreed (s : State) : Beside s s.portFreed := by
  refine ⟨⟨fun hs => ?_, fun _ ho => ho, fun _ hr => hr⟩, fun _ ho => ?_⟩
  · obtain ⟨h1, h2, h3, h4, h5, h6, h7, h8, h9, -, h11⟩ := hs
    exact ⟨h1, h2, h3, h4, h5, h6, h7, h8, h9, fun a ha => by simp at ha, h11⟩
  · refine State.operationFits_congr ho rfl rfl rfl id rfl ?_ ⟨id, fun _ => rfl, (List.map_id _).symm⟩
    rw [State.anchorsDue_eq, State.anchorsDue_eq]
    exact List.sublist_append_right _ _

theorem setContext (s : State) (i : Nat) (c : Context) : Beside s (s.setContext i c) := same rfl

theorem slotWritten (s : State) (n : Nat) : Beside s (s.slotWritten n) := by
  refine reservations (f := fun r => if r.slot = n then { r with state := .written } else r) (ws := []) rfl
    (fun r => ?_) rfl (List.append_nil _).symm (by simp) ⟨rfl, rfl, rfl, rfl⟩
  split <;> exact ⟨rfl, rfl⟩

theorem slotFailed (s : State) (n : Nat) (f : MemFailure) : Beside s (s.slotFailed n f) := by
  refine reservations (f := fun r => if r.slot = n then { r with state := .voiding, failure := some f } else r)
    (ws := [.voidHeader n]) rfl (fun r => ?_) rfl rfl (by simp) ⟨rfl, rfl, rfl, rfl⟩
  split <;> exact ⟨rfl, rfl⟩

theorem captureFailed (s : State) (i : Nat) (c : Context) (f : MemFailure) : Beside s (s.captureFailed i c f) := by
  have hfail : Beside s (((s.setContext i { c with failure := some f, state := .written }).slotFailed c.slot f).raise
      .captureFailed c.level (failureCondition f) c.serial c.block) :=
    (setContext s i _).trans ((slotFailed _ _ _).trans (raise _ _ _ _ _ _))
  unfold State.captureFailed
  simp only
  split
  · have hdep : ∀ u : State, Beside u (u.refuseDependents c) := fun u => (discardHeld u _).trans (same rfl)
    exact hfail.trans (hdep _)
  · exact hfail.trans (breakAll _ _ _)

theorem countCapture (s : State) (k : Nat) : Beside s (s.countCapture k) := setLevel s k _ (fun _ => rfl) (fun _ => rfl)

/-! ## The fence -/

theorem enterFence (s : State) {r : FenceReason} (hr : r ≠ .none) (c : Condition) : Beside s (s.enterFence r c) := by
  have hdiscard : ∀ u : State, Beside u (u.fenceDiscard r) := by
    intro u
    cases r
    case none => exact absurd rfl hr
    case frozen => exact refl u
    all_goals exact discardHeld u _
  have hmode : Beside s { s with oc := { s.oc with mode := .fenced, fence := r } } := by
    refine ⟨⟨fun hs => ?_, fun _ ho => ho, fun _ h => h⟩, fun hs ho => ?_⟩
    · obtain ⟨-, h2, -, h4, h5, h6, h7, h8, h9, h10, h11⟩ := hs
      exact ⟨rfl, h2, ⟨fun h => absurd h hr, fun h => absurd rfl h⟩, h4, h5, h6, h7, h8, h9, h10, h11⟩
    · exact State.operationFits_congr ho rfl rfl rfl (fun _ => hs.active) rfl (List.Sublist.refl _)
        ⟨id, fun _ => rfl, (List.map_id _).symm⟩
  have hstop : ∀ u : State, Beside u u.stopTimer := fun _ => same rfl
  exact hmode.trans ((hstop _).trans ((hdiscard _).trans (raise _ _ _ _ _ _)))

theorem dropLatch (s : State) : Beside s s.dropLatch := by
  unfold State.dropLatch
  split
  · exact same rfl
  · exact refl s

theorem stopTimerIfEmpty (s : State) : Beside s s.stopTimerIfEmpty := by
  unfold State.stopTimerIfEmpty
  split
  · exact same rfl
  · exact refl s

theorem queueWrite_fits {s : State} {w : LogWrite} (hw : w.epochal = true) (hs : s.epochsFit) :
    (s.queueWrite w).epochsFit := by
  obtain ⟨h1, h2, h3, h4, h5, h6, h7, h8, h9, h10, h11⟩ := hs
  refine ⟨h1, h2, h3, h4, h5, h6, h7, h8, fun x hx => ?_, h10, h11⟩
  rcases List.mem_append.mp hx with hx | hx
  · exact h9 x hx
  · rw [List.mem_singleton.mp hx]
    exact hw

end Beside

end Sys2Proof.Machine

/-! SUPPORT. The operations on epochs: each keeps what ONLINE and FENCED promise, the stack's order and the ring's
counts. -/

namespace Sys2Proof.Machine

namespace EpochStep

/-! ## By the part of the state that changes -/

/-- The controller alone changes: levels may go, not come, and a rollback needs its stage. -/
theorem control {s t : State} (h : ({ t with oc := s.oc } : State).core = s.core) (hmode : t.oc.mode = s.oc.mode)
    (hfence : t.oc.fence = s.oc.fence) (hattach : t.oc.attach = s.oc.attach)
    (hop : t.oc.op = .rolling ∨ t.oc.op = .halted → s.oc.op = .rolling ∨ s.oc.op = .halted)
    (hstack : (t.oc.stack.map Level.serial).Sublist (s.oc.stack.map Level.serial))
    (hsucc : ∀ x ∈ t.oc.successor, ∃ y ∈ s.oc.successor, y.serial = x.serial) : EpochStep s t := by
  let u : State := { t with oc := s.oc }
  have hsame : EpochStep s u := same h
  have hoc : EpochStep u t := by
    refine ⟨fun hf => ?_, fun _ ho => ?_, fun _ hr => hr⟩
    · obtain ⟨h1, h2, h3, h4, h5, h6, h7, h8, h9, h10, h11⟩ := hf
      exact ⟨(Controller.active_congr hmode).trans h1, hattach.trans h2, by rw [hmode, hfence]; exact h3, h4, h5, h6, h7,
        fun hr => h8 (hop hr), h9, h10, h11⟩
    · exact State.stackOrdered_congr ho hstack hsucc rfl
  exact hsame.trans hoc

/-- The log's state alone changes, its writes those that ONLINE and FENCED allow, its counts in order. -/
theorem log {s t : State} (h : ({ t with lc := s.lc } : State).core = s.core)
    (hw : s.epochsFit → ∀ w ∈ t.lc.writes, w ∈ s.lc.writes ∨ w.epochal = true)
    (hread : t.lc.attachRead = s.lc.attachRead) (hnext : t.lc.nextSerial = s.lc.nextSerial)
    (hring : s.epochsFit → s.ringFits → t.lc.durable ≤ t.lc.live ∧ t.lc.live ≤ s.log.slots) : EpochStep s t := by
  have hsame : EpochStep s { t with lc := s.lc } := same h
  simp only [State.core, Prod.mk.injEq] at h
  obtain ⟨hlog, -⟩ := h
  refine ⟨fun hf => ?_, fun hf ho => ?_, fun hf hr => ?_⟩
  · obtain ⟨h1, h2, h3, h4, h5, h6, h7, h8, h9, h10, h11⟩ := hsame.fits hf
    refine ⟨h1, h2, h3, h4, h5, h6, h7, h8, fun w hmem => ?_, h10, hread.trans hf.attachRead⟩
    rcases hw hf w hmem with hold | hnew
    · exact hf.writes w hold
    · exact hnew
  · exact State.stackOrdered_congr (hsame.stack hf ho) (List.Sublist.refl _) (fun x hx => ⟨x, hx, rfl⟩) hnext
  · unfold State.ringFits
    rw [show t.log = s.log from hlog]
    exact hring hf hr

/-- The restore engine alone changes, to a stage that ONLINE and FENCED allow. -/
theorem restore {s t : State} (h : ({ t with re := s.re } : State).core = s.core)
    (hscan : s.epochsFit → t.re.stage ≠ .scanning)
    (hpurpose : s.epochsFit → t.re.stage ≠ .idle → t.re.purpose ≠ .recovery)
    (hroll : s.epochsFit → s.oc.op = .rolling ∨ s.oc.op = .halted → t.re.stage ≠ .idle) : EpochStep s t := by
  have hsame : EpochStep s { t with re := s.re } := same h
  simp only [State.core, Prod.mk.injEq] at h
  obtain ⟨-, -, -, -, -, -, -, -, hop, -⟩ := h
  refine ⟨fun hf => ?_, hsame.stack, hsame.ring⟩
  obtain ⟨h1, h2, h3, h4, h5, -, -, -, h9, h10, h11⟩ := hsame.fits hf
  exact ⟨h1, h2, h3, h4, h5, hscan hf, hpurpose hf, by rw [show t.oc.op = s.oc.op from hop]; exact hroll hf, h9, h10,
    h11⟩

theorem of_fits {s t : State} (h : s.epochsFit → EpochStep s t) : EpochStep s t :=
  ⟨fun hs => (h hs).fits hs, fun hs => (h hs).stack hs, fun hs => (h hs).ring hs⟩

theorem queueWrite (s : State) {w : LogWrite} (hw : w.epochal = true) : EpochStep s (s.queueWrite w) := by
  refine log rfl (fun _ x hx => ?_) rfl rfl fun _ hr => hr
  rcases List.mem_append.mp hx with hx | hx
  · exact .inl hx
  · exact .inr (List.mem_singleton.mp hx ▸ hw)

theorem reserve {s : State} (p : Purpose) (k : Nat) (w : Word32) (h : s.lc.live ≠ s.log.slots) :
    EpochStep s (s.reserve p k w) := by
  have hevents : EpochStep { s with lc := (s.reserve p k w).lc } (s.reserve p k w) :=
    same (by rw [State.reserve_eq]; rfl)
  have hlog : EpochStep s { s with lc := (s.reserve p k w).lc } := by
    refine log rfl ?_ ?_ ?_ ?_ <;> rw [State.reserve_eq]
    · exact fun _ x hx => .inl hx
    · exact fun _ ⟨h1, h2⟩ => ⟨Nat.le_succ_of_le h1, Nat.lt_of_le_of_ne h2 h⟩
  exact hlog.trans hevents

/-! ## The stack -/

theorem popInnermost (s : State) : EpochStep s s.popInnermost := by
  refine control rfl rfl rfl rfl id ?_ fun x hx => ⟨x, hx, rfl⟩
  exact (List.dropLast_sublist _).map _

theorem popLevel (s : State) : EpochStep s s.popLevel :=
  (same (s := s) (t := { s with cf := filterInvalidate s.cf s.oc.depth }) rfl).trans
    ((popInnermost _).trans (Beside.stopTimerIfEmpty _).toEpochStep)

theorem popLevels (n : Nat) : ∀ s : State, EpochStep s (s.popLevels n) := by
  induction n with
  | zero => exact refl
  | succ n ih => exact fun s => (popLevel s).trans (ih _)

theorem endOperation (s : State) : EpochStep s s.endOperation := by
  refine control rfl rfl rfl rfl (fun h => ?_) (List.Sublist.refl _) fun x hx => ⟨x, hx, rfl⟩
  rcases h with h | h <;> cases h

/-- The phase, the stamp, the bar, the latch and the timer are no part of it. -/
theorem phase (s : State) (p : OpPhase) : EpochStep s { s with oc := { s.oc with phase := p } } :=
  control rfl rfl rfl rfl id (List.Sublist.refl _) fun x hx => ⟨x, hx, rfl⟩

/-- A level more, with the serial given it (R48). -/
theorem pushLevel {s : State} (hn : s.lc.nextSerial ≠ 0) (h6 : s.oc.stack.length < 6) :
    EpochStep s (({ s with lc := { s.lc with nextSerial := s.lc.nextSerial + 1 } } : State).pushLevel
      s.lc.nextSerial) := by
  refine ⟨fun hf => ?_, fun _ ho => ?_, fun _ hr => hr⟩
  · obtain ⟨h1, h2, h3, h4, h5, h6, h7, -, h9, h10, h11⟩ := hf
    exact ⟨h1, h2, h3, h4, h5, h6, h7, fun h => (by rcases h with h | h <;> cases h), h9, h10, h11⟩
  · obtain ⟨hlen, hpair, hserial, hsucc⟩ := ho
    have hnext : s.lc.nextSerial + 1 ≠ 0 → (s.lc.nextSerial + 1).toNat = s.lc.nextSerial.toNat + 1 := fun hne => by
      bv_omega
    have hbelow : ∀ w : Word32, w.toNat ≤ s.lc.nextSerial.toNat →
        s.lc.nextSerial + 1 ≠ 0 → w.toNat < (s.lc.nextSerial + 1).toNat := fun w hw hne => by
      have := hnext hne
      omega
    refine ⟨?_, ?_, fun l hl => ?_, fun x hx => ⟨(hsucc x hx).1, ?_⟩⟩
    · have hpushed : ∀ l : Level, (s.oc.stack ++ [l]).length ≤ 6 := fun l => by rw [List.length_append]; exact h6
      exact hpushed _
    · refine List.pairwise_append.mpr ⟨hpair, List.pairwise_singleton .., fun l hl m hm => ?_⟩
      rw [List.mem_singleton.mp hm]
      exact (hserial l hl).2 hn
    · rcases List.mem_append.mp hl with hl | hl
      · exact ⟨(hserial l hl).1, hbelow _ (Nat.le_of_lt ((hserial l hl).2 hn))⟩
      · rw [List.mem_singleton.mp hl]
        exact ⟨hn, hbelow _ (Nat.le_refl _)⟩
    · exact hbelow _ (Nat.le_of_lt ((hsucc x hx).2 hn))

/-- A rotation starts with a serial taken (R55). -/
theorem startRotation {s : State} (hn : s.lc.nextSerial ≠ 0) (origin : RotationOrigin) :
    EpochStep s (({ s with lc := { s.lc with nextSerial := s.lc.nextSerial + 1 } } : State).startRotation
      s.lc.nextSerial origin) := by
  refine ⟨fun hf => ?_, fun _ ho => ?_, fun _ hr => hr⟩
  · obtain ⟨h1, h2, h3, h4, h5, h6, h7, -, h9, h10, h11⟩ := hf
    exact ⟨h1, h2, h3, h4, h5, h6, h7, fun h => (by rcases h with h | h <;> cases h), h9, h10, h11⟩
  · obtain ⟨hlen, hpair, hserial, -⟩ := ho
    have hbelow : ∀ w : Word32, w.toNat ≤ s.lc.nextSerial.toNat →
        s.lc.nextSerial + 1 ≠ 0 → w.toNat < (s.lc.nextSerial + 1).toNat := fun w hw hne => by
      have : (s.lc.nextSerial + 1).toNat = s.lc.nextSerial.toNat + 1 := by bv_omega
      omega
    refine ⟨hlen, hpair, fun l hl => ⟨(hserial l hl).1, hbelow _ (Nat.le_of_lt ((hserial l hl).2 hn))⟩, fun x hx => ?_⟩
    obtain rfl := Option.some.inj hx
    exact ⟨hn, hbelow _ (Nat.le_refl _)⟩

theorem timerRotation (s : State) : EpochStep s s.timerRotation := by
  rcases State.timerRotation_cases s with ⟨-, h⟩ | ⟨hn, h⟩ <;> rw [h]
  · exact same rfl
  · exact startRotation hn _

theorem startTimer (s : State) : EpochStep s s.startTimer := same rfl

/-- Level 1 is replaced by the successor (R56, R57). -/
theorem replaceLevelOne {s : State} {x : Successor} (hx : s.oc.successor = some x) (n : Option Nat) :
    EpochStep s (s.replaceLevelOne x.serial n) := by
  let u : State := { s with
    oc := { s.oc with
      stack := [{ serial := x.serial, start := n, durable := n.isSome, broken := false, captures := 0 }]
      successor := none, bar := none }
    cf := [] }
  have hu : EpochStep s u := by
    refine ⟨fun hf => ?_, fun _ ho => ?_, fun _ hr => hr⟩
    · obtain ⟨h1, h2, h3, h4, h5, h6, h7, h8, h9, h10, h11⟩ := hf
      exact ⟨h1, h2, h3, h4, h5, h6, h7, h8, h9, h10, h11⟩
    · obtain ⟨-, -, -, hsucc⟩ := ho
      refine ⟨Nat.le_of_ble_eq_true rfl, List.pairwise_singleton .., fun l hl => ?_, fun y hy => by cases hy⟩
      rw [List.mem_singleton.mp hl]
      exact hsucc x hx
  exact hu.trans (Beside.restamp u _ 0).toEpochStep

/-! ## Restore engine: rollback and discard -/

theorem acceptRollback (s : State) (j : Nat) (o : RollbackOrigin) : EpochStep s (s.acceptRollback j o) := by
  unfold State.acceptRollback
  refine trans (t := { s with
    re := { s.re with
      stage := .settling, purpose := .rollback, origin := o, target := j, targetSerial := s.oc.serialAt j
      fromFreeze := s.oc.frozen
      restored := 0, abortRequested := false, haltCondition := .none, rangeBreak := .none, handling := .header }
    oc := { s.oc with op := .rolling } }) ?_ (Beside.discardHeld _ _).toEpochStep
  refine ⟨fun hf => ?_, fun _ ho => ho, fun _ hr => hr⟩
  obtain ⟨h1, h2, h3, h4, h5, -, -, -, h9, h10, h11⟩ := hf
  exact ⟨h1, h2, h3, h4, h5, fun h => (by cases h), fun _ h => (by cases h), fun _ h => (by cases h), h9, h10, h11⟩

/-- A rollback's stage is neither idle nor a recovery's, so it may stand halted. -/
theorem haltRollback (s : State) (c : Condition) (n : Nat) (hstage : s.re.stage ≠ .idle) :
    EpochStep s (s.haltRollback c n) := by
  refine ⟨fun hf => ?_, fun _ ho => ho, fun _ hr => hr⟩
  obtain ⟨h1, h2, h3, h4, h5, -, h7, -, h9, h10, h11⟩ := hf
  exact ⟨h1, h2, h3, h4, h5, fun h => (by cases h), fun _ => h7 hstage, fun _ h => (by cases h), h9, h10, h11⟩

theorem haltSlot (s : State) (c : Condition) (hstage : s.re.stage ≠ .idle) : EpochStep s (s.haltSlot c) := by
  refine trans (t := { s with re := { s.re with abortRequested := false } }) ?_ (haltRollback _ c _ hstage)
  exact restore rfl (fun hf => hf.notScanning) (fun hf => hf.purpose) (fun hf => hf.rolling)

theorem rolledBack (s : State) : EpochStep s s.rolledBack := by
  have hend : EpochStep s ({ s with re := { s.re with stage := .idle } } : State).endOperation := by
    refine ⟨fun hf => ?_, fun _ ho => ho, fun _ hr => hr⟩
    obtain ⟨h1, h2, h3, h4, h5, -, -, -, h9, h10, h11⟩ := hf
    exact ⟨h1, h2, h3, h4, h5, fun h => (by cases h), fun h => absurd rfl h, fun h => (by rcases h with h | h <;> cases h),
      h9, h10, h11⟩
  have hleave : ∀ u : State, EpochStep u u.leaveFreeze := by
    intro u
    unfold State.leaveFreeze
    split
    · have honline : EpochStep u { u with oc := { u.oc with mode := .online, fence := .none } } := by
        refine ⟨fun hf => ?_, fun _ ho => ho, fun _ hr => hr⟩
        obtain ⟨-, h2, -, h4, h5, h6, h7, h8, h9, h10, h11⟩ := hf
        exact ⟨rfl, h2, ⟨fun _ h => (by cases h), fun _ => rfl⟩, h4, h5, h6, h7, h8, h9, h10, h11⟩
      simp only
      split
      · exact honline
      · exact honline.trans (startTimer _)
    · exact refl u
  exact hend.trans ((hleave _).trans (Beside.raise _ _ _ _ _ _).toEpochStep)

theorem replayEnds (s : State) (hstage : s.re.stage ≠ .idle) : EpochStep s s.replayEnds := by
  have hclear : EpochStep s { s with re := { s.re with abortRequested := false, handling := .header } } :=
    restore rfl (fun hf => hf.notScanning) (fun hf => hf.purpose) (fun hf => hf.rolling)
  simp only [State.replayEnds]
  split
  · have hanchor : EpochStep s { s with
        re := { s.re with abortRequested := false, handling := .header, stage := .anchoring } } :=
      restore rfl (fun _ h => by cases h) (fun hf _ => hf.purpose hstage) (fun _ _ h => by cases h)
    exact hanchor.trans (queueWrite _ rfl)
  · exact hclear.trans (rolledBack _)

theorem slotDone (s : State) (hstage : s.re.stage ≠ .idle) : EpochStep s s.slotDone := by
  simp only [State.slotDone]
  split
  · exact haltRollback s _ _ hstage
  · exact restore rfl (fun hf => hf.notScanning) (fun hf => hf.purpose) (fun hf => hf.rolling)

theorem popLevel_re (s : State) : s.popLevel.re = s.re := s.popLevel_onlyChanges .re (by decide)

theorem replayRecord (s : State) (h p : BlockData) (hstage : s.re.stage ≠ .idle) : EpochStep s (s.replayRecord h p) := by
  have hpop : s.popLevel.re.stage ≠ .idle := by rw [popLevel_re]; exact hstage
  unfold State.replayRecord
  split
  · exact haltSlot s _ hstage
  · split
    · split
      · exact restore rfl (fun hf => hf.notScanning) (fun hf => hf.purpose) (fun hf => hf.rolling)
      · simp only [State.replayOpen]
        split
        · split
          · exact (popLevel s).trans (replayEnds _ hpop)
          · exact (popLevel s).trans (slotDone _ hpop)
        · exact slotDone s hstage
      · exact slotDone s hstage
    · exact haltSlot s _ hstage

theorem discardLevels (s : State) : EpochStep s s.discardLevels := by
  unfold State.discardLevels
  refine (popLevels s.discardPops s).trans
    ((Beside.breakAll (s.popLevels s.discardPops) s.re.haltCondition 0).toEpochStep.trans ?_)
  exact restore rfl (fun hf => hf.notScanning) (fun hf => hf.purpose) (fun hf => hf.rolling)

/-! ## The dead log -/

theorem abandonEpochOp (s : State) : EpochStep s s.abandonEpochOp := by
  have hstamp : ∀ w : Word32, EpochStep s { s with oc := { s.oc with stamp := w } } := fun _ => same rfl
  unfold State.abandonEpochOp
  cases s.oc.phase
  case openWait | openMarker => exact (popInnermost s).trans (Beside.raise _ _ _ _ _ _).toEpochStep
  case openReclaim => exact (Beside.raise s _ _ _ _ _).toEpochStep
  case rotateWait | rotateMarker | rotateAnchor | rotateFirstAnchor => exact hstamp _
  case rotateLateMarker => exact popInnermost s
  all_goals exact refl s

theorem endForDeadLog (s : State) : EpochStep s s.endForDeadLog := by
  have hclear : EpochStep s.abandonEpochOp.endOperation s.endForDeadLog := by
    refine ⟨fun hf => ?_, fun _ ho => ?_, fun _ hr => hr⟩
    · obtain ⟨h1, h2, h3, h4, h5, -, -, -, h9, h10, h11⟩ := hf
      exact ⟨h1, h2, h3, h4, h5, fun h => (by cases h), fun h => absurd rfl h, fun h => (by rcases h with h | h <;> cases h),
        h9, h10, h11⟩
    · exact State.stackOrdered_congr ho (List.Sublist.refl _) (fun x hx => by cases hx) rfl
  exact (abandonEpochOp s).trans ((endOperation _).trans hclear)

theorem declareDead (s : State) (f : MemFailure) : EpochStep s (s.declareDead f) := by
  let dead : State := { s with
    lc := { s.lc with dead := true, reservations := [], writes := [] }, ce := CaptureEngine.reset }
  have hdead : EpochStep s dead :=
    log (t := dead) rfl (fun _ w hw => by cases hw) rfl rfl fun _ hr => hr
  have hfence := Beside.enterFence dead.endForDeadLog (r := .logDead) (by decide) (failureCondition f)
  exact hdead.trans ((endForDeadLog dead).trans (hfence.trans (Beside.dropLatch _)).toEpochStep)

/-! ## Faults -/

theorem faultRollback (s : State) (j : Nat) : EpochStep s (s.faultRollback j) := by
  unfold State.faultRollback
  split
  · exact ((Beside.raise s _ _ _ _ _).trans (Beside.enterFence _ (by decide) _)).toEpochStep
  · exact (acceptRollback s j _).trans (Beside.raise _ _ _ _ _ _).toEpochStep

theorem actOnFault (s : State) : EpochStep s s.actOnFault := by
  unfold State.actOnFault
  split
  · exact refl s
  · exact ((Beside.raise s _ _ _ _ _).trans (Beside.enterFence _ (by decide) _)).toEpochStep
  · split
    · exact (Beside.raise s _ _ _ _ _).toEpochStep
    · exact faultRollback s _
  · split
    · exact (Beside.raise s _ _ _ _ _).toEpochStep
    · exact faultRollback s _

theorem takeAssertion (s : State) : EpochStep s s.takeAssertion := by
  unfold State.takeAssertion
  split
  · exact (Beside.raise s _ _ _ _ _).toEpochStep
  · split
    · exact (Beside.raise s _ _ _ _ _).toEpochStep
    · split
      · exact actOnFault s
      · split
        · exact (Beside.raise s _ _ _ _ _).toEpochStep
        · exact same rfl

/-! ## Markers and the durable mark -/

theorem failOpen (s : State) (c : Condition) : EpochStep s (s.failOpen c) :=
  (popInnermost s).trans ((Beside.restamp _ _ _).trans ((Beside.raise _ _ _ _ _ _).trans
    (Beside.stopTimerIfEmpty _))).toEpochStep

/-- A marker becomes durable: serials stay. -/
theorem markLevel (s : State) (k : Nat) (f : Level → Level) (hf : ∀ l, (f l).serial = l.serial) :
    EpochStep s (s.setLevel k f) := by
  refine control rfl rfl rfl rfl id ?_ fun x hx => ⟨x, hx, rfl⟩
  have hmap : (s.setLevel k f).oc.stack.map Level.serial = s.oc.stack.map Level.serial := by
    rw [State.setLevel_oc]
    dsimp only
    split
    · rfl
    · exact Beside.map_modify_of_eq hf _ _
  rw [hmap]

theorem markerDurable (s : State) (e : Reservation) : EpochStep s (s.markerDurable e) := by
  unfold State.markerDurable
  cases s.oc.phase
  case openMarker =>
    have hmark := markLevel s e.level (fun l => { l with durable := true }) (fun _ => rfl)
    simp only [State.openMarkerDurable]
    split
    · exact hmark.trans ((Beside.raise _ _ _ _ _ _).toEpochStep.trans ((startTimer _).trans (endOperation _)))
    · exact hmark.trans ((Beside.raise _ _ _ _ _ _).toEpochStep.trans (endOperation _))
  case rotateMarker => exact (phase s _).trans (queueWrite _ rfl)
  case rotateLateMarker =>
    have hmark := markLevel s 1 (fun l => { l with durable := true }) (fun _ => rfl)
    have hpending : ∀ u : State, EpochStep u { u with oc := { u.oc with rotationPending := false } } :=
      fun _ => same rfl
    exact hmark.trans ((startTimer _).trans ((hpending _).trans
      ((Beside.raise _ _ _ _ _ _).toEpochStep.trans (endOperation _))))
  all_goals exact refl s

theorem markerFailed (s : State) (c : Condition) : EpochStep s (s.markerFailed c) := by
  unfold State.markerFailed
  cases s.oc.phase
  case openMarker =>
    simp only [State.openMarkerFailed]
    split
    · exact (failOpen s c).trans ((phase _ _).trans (queueWrite _ rfl))
    · exact (failOpen s c).trans (endOperation _)
  case rotateMarker =>
    simp only [State.abandonRotation]
    split
    · exact endOperation s
    · have hclear : EpochStep s { s with oc := { s.oc with stamp := s.oc.innermost, bar := none, successor := none } } :=
        control rfl rfl rfl rfl id (List.Sublist.refl _) fun x hx => by cases hx
      exact hclear.trans (((Beside.restamp _ _ _).trans (Beside.raise _ _ _ _ _ _)).toEpochStep.trans (endOperation _))
  case rotateLateMarker origin =>
    have hstop : ∀ u : State, Beside u u.stopTimer := fun _ => Beside.same rfl
    have hfail := (Beside.restamp s.popInnermost s.oc.innermost 0).trans
      ((Beside.raise _ .openFailed 1 c s.oc.innermost (failedRotationArgument origin)).trans (hstop _))
    exact (popInnermost s).trans (hfail.toEpochStep.trans ((phase _ _).trans (queueWrite _ rfl)))
  all_goals exact refl s

theorem passEntry (s : State) (e : Reservation) : EpochStep s (s.passEntry e) := by
  unfold State.passEntry
  refine (Beside.slotDurable s e.slot).toEpochStep.trans ?_
  simp only
  split
  · exact (Beside.countCapture _ _).toEpochStep
  · exact refl _
  · exact markerDurable _ _
  · exact markerFailed _ _

theorem advanceOver (ls : List Reservation) : ∀ s : State, EpochStep s (advanceOver ls s) := by
  induction ls with
  | nil => exact refl
  | cons e rest ih =>
    intro s
    unfold Machine.advanceOver
    split
    · rename_i hcond
      have hmark : EpochStep s { s with lc := { s.lc with reservations := rest, durable := s.lc.durable + 1 } } :=
        log rfl (fun _ w hw => .inl hw) rfl rfl fun _ hr => ⟨hcond.2, hr.2⟩
      exact hmark.trans ((passEntry _ e).trans (ih _))
    · exact refl s

theorem advanceMark (s : State) : EpochStep s s.advanceMark := advanceOver _ s

/-! ## Anchors -/

theorem ringDistance_le (n tail slot : Nat) : ringDistance n tail slot ≤ n := by
  unfold ringDistance
  split
  · omega
  · exact Nat.le_of_lt (Nat.mod_lt _ (by omega))

/-- A completed anchor leaves queue, reads, serials and reservations alone (R36). -/
theorem anchored_lc (s : State) (job : AnchorJob) :
    (s.anchored job).lc.writes = s.lc.writes ∧ (s.anchored job).lc.attachRead = s.lc.attachRead
      ∧ (s.anchored job).lc.nextSerial = s.lc.nextSerial
      ∧ (s.anchored job).lc.reservations = s.lc.reservations := by
  unfold State.anchored LogState.anchored
  simp

/-- Its counts are in order: the tail at head leaves none, and any other no more than the ring holds (log 26). -/
theorem anchored_ring (s : State) (job : AnchorJob) : (s.anchored job).ringFits := by
  have hhead := ringDistance_le s.log.slots job.anchor.tail.toNat
  unfold State.ringFits State.anchored LogState.anchored
  dsimp only
  split
  · exact ⟨Nat.le_refl _, Nat.zero_le _⟩
  · exact ⟨Nat.min_le_right _ _, hhead _⟩

theorem anchored (s : State) (job : AnchorJob) : EpochStep s (s.anchored job) := by
  obtain ⟨hwrites, hread, hnext, -⟩ := anchored_lc s job
  have hepisode : EpochStep { s with lc := (s.anchored job).lc } (s.anchored job) := same rfl
  have hlog : EpochStep s { s with lc := (s.anchored job).lc } :=
    log rfl (fun _ w hw => .inl (hwrites ▸ hw)) hread hnext fun _ _ => anchored_ring s job
  exact hlog.trans hepisode

/-! ## The ends of the anchors that epochs ask for -/

theorem raise (s : State) (k : EventKind) (n : Nat) (c : Condition) (w a : Word32) : EpochStep s (s.raise k n c w a) :=
  (Beside.raise s k n c w a).toEpochStep

theorem committed (s : State) : EpochStep s s.committed := by
  unfold State.committed
  split
  · exact endOperation s
  · rename_i l _
    have hempty : EpochStep s { s with oc := { s.oc with stack := [], stamp := 0, bar := none }, cf := [] } :=
      control rfl rfl rfl rfl id (List.nil_sublist _) fun x hx => ⟨x, hx, rfl⟩
    have hstop : ∀ u : State, EpochStep u u.stopTimer := fun _ => same rfl
    exact hempty.trans ((Beside.restamp _ l.serial 0).toEpochStep.trans
      ((hstop _).trans ((raise _ _ _ _ _ _).trans (endOperation _))))

theorem rotated (s : State) (slot : Nat) : EpochStep s (s.rotated slot) := by
  unfold State.rotated
  split
  · exact endOperation s
  · rename_i x hx
    have hpending : ∀ u : State, EpochStep u { u with oc := { u.oc with rotationPending := false } } :=
      fun _ => same rfl
    exact (replaceLevelOne hx _).trans ((startTimer _).trans ((hpending _).trans
      ((raise _ _ _ _ _ _).trans (endOperation _))))

/-- The empty ring grants the late marker's slot (R57). -/
theorem rotatedFirst {s : State} (hlive : s.lc.live ≠ s.log.slots) : EpochStep s s.rotatedFirst := by
  unfold State.rotatedFirst
  split
  · exact endOperation s
  · rename_i x hx
    have hreserve : EpochStep (s.replaceLevelOne x.serial none)
        ((s.replaceLevelOne x.serial none).reserve .marker 1 x.serial) := reserve _ _ _ hlive
    have hstart := markLevel ((s.replaceLevelOne x.serial none).reserve .marker 1 x.serial) 1
      (fun l => { l with start := some s.lc.head }) fun _ => rfl
    exact (replaceLevelOne hx none).trans (hreserve.trans (hstart.trans ((phase _ _).trans (queueWrite _ rfl))))

/-- The discard's anchor is complete (R132). -/
theorem discardAnchored (s : State) :
    EpochStep s (({ s with re := { s.re with stage := .idle } } : State).endOperation).raiseDiscarded := by
  have hend : EpochStep s ({ s with re := { s.re with stage := .idle } } : State).endOperation := by
    refine ⟨fun hf => ?_, fun _ ho => ho, fun _ hr => hr⟩
    obtain ⟨h1, h2, h3, h4, h5, -, -, -, h9, h10, h11⟩ := hf
    exact ⟨h1, h2, h3, h4, h5, fun h => (by cases h), fun h => absurd rfl h,
      fun h => (by rcases h with h | h <;> cases h), h9, h10, h11⟩
  exact hend.trans (raise _ _ _ _ _ _)

/-- An anchor that epochs ask for completes. -/
theorem anchorDone {s : State} {o : AnchorOccasion} (ho : o.fits .onlineAtReset = true)
    (hlive : o = .rotateFirst → s.lc.live ≠ s.log.slots) : EpochStep s (s.anchorDone o) := by
  cases o
  case attachKeep | formatA | formatB | recovery => cases ho
  case commit => exact committed s
  case openReclaim | rotateReclaim => exact endOperation s
  case rotateMarker slot _ => exact rotated s slot
  case rotateFirst => exact rotatedFirst (hlive rfl)
  case rollback => exact rolledBack s
  case discard => exact discardAnchored s

/-- The contexts and reservations of a level relabelled (R52, R87). -/
theorem relabelCaptures (s : State) (k : Nat) (w : Word32) : EpochStep s (s.relabelCaptures k w) := by
  have hctx : EpochStep { s with lc := (s.relabelCaptures k w).lc } (s.relabelCaptures k w) := same rfl
  have hlog : EpochStep s { s with lc := (s.relabelCaptures k w).lc } :=
    log rfl (fun _ _ hx => .inl hx) rfl rfl fun _ hr => hr
  exact hlog.trans hctx

theorem commitInner (s : State) (k : Nat) (l : Level) : EpochStep s (s.commitInner k l) := by
  have hcount := markLevel s (k - 1) (fun m => { m with captures := saturatingAdd m.captures l.captures }) fun _ => rfl
  have hfilter : ∀ (u : State) (cf : List FilterEntry), EpochStep u { u with cf } := fun _ _ => same rfl
  exact hcount.trans ((popInnermost _).trans ((hfilter _ _).trans ((relabelCaptures _ _ _).trans
    ((Beside.restamp _ _ _).toEpochStep.trans (raise _ _ _ _ _ _)))))

end EpochStep

end Sys2Proof.Machine

/-! SUPPORT. Every command in ONLINE and FENCED: an epoch step, but for the completion of a detach and a pin reset. -/

namespace Sys2Proof.Machine

/-- The request an outcome ends is one that ONLINE and FENCED allow. -/
theorem State.epochsFit.owner {s : State} (h : s.epochsFit) {o : Owner} {r : MemReply} (he : s.endsWith o r) :
    o.epochal = true := by
  obtain ⟨a, ha, rfl, -⟩ := he
  exact h.port a (by rw [ha]; exact rfl)

/-- A decision outside OFFLINE holds no write of class LOG (R12). -/
theorem State.decideRequest_entries {s : State} (hm : s.oc.mode ≠ .offline) (r : MemRequest) :
    ∀ e ∈ (s.decideRequest r).hq.entries, e.cls = .log → e ∈ s.hq.entries := by
  intro e he hlog
  rcases State.decideRequest_entry s r e he with h | h
  · exact h
  · rw [hlog, treatment] at h
    simp [hm] at h

theorem Beside.decideRequest (s : State) (r : MemRequest) (hm : s.oc.mode ≠ .offline) : Beside s (s.decideRequest r) := by
  have hframe := s.decideRequest_onlyChanges r
  refine Beside.entries ?_ fun e he hlog => ⟨e, State.decideRequest_entries hm r e he hlog, hlog, id⟩
  simp only [State.core]
  rw [hframe .log (by decide), hframe .lc (by decide), hframe .re (by decide), hframe .port (by decide),
    hframe .oc (by decide)]

/-- What follows at once is beside the operation. -/
theorem Beside.finish (b a : State) (hm : a.oc.mode ≠ .offline) : Beside a (finish b a) := by
  have hre : Beside a (redecide b a) := by
    rcases redecide_cases b a with h | ⟨_, r, -, h⟩ <;> rw [h]
    · exact refl a
    · exact decideRequest a r hm
  exact hre.trans (same rfl)

namespace EpochStep

/-- A request presented at the port is one its requester's rules allow. -/
theorem present {s u : State} (hu : EpochStep s u) (o : Owner) (q : MemRequest) (ho : u.epochsFit → o.epochal = true) :
    EpochStep s (u.present o q) := by
  refine hu.trans ⟨fun hf => ?_, fun _ h => h, fun _ h => h⟩
  obtain ⟨h1, h2, h3, h4, h5, h6, h7, h8, h9, h10, h11⟩ := id hf
  refine ⟨h1, h2, h3, h4, h5, h6, h7, h8, h9, fun a ha => ?_, h11⟩
  obtain rfl := Option.some.inj ha
  exact ho hf

theorem grant {s t : State} {first : Requester} (h : s.grant first = some t) : EpochStep s t := by
  refine of_fits fun hf => ?_
  have hfair : ∀ n, EpochStep s { s with dp := { s.dp with fairness := n } } := fun _ => same rfl
  obtain ⟨-, n, ⟨w, rest, q, -, hw, rfl⟩ | ⟨o, q, -, -, hr, rfl⟩ | ⟨q, -, rfl⟩ | ⟨i, part, q, -, rfl⟩ | ⟨e, q, rfl⟩ |
    ⟨q, rfl⟩⟩ := State.grant_cases h
  · have hpop : EpochStep s { s with dp := { s.dp with fairness := n }, lc := { s.lc with writes := rest } } :=
      log (by rfl) (fun _ x hx => .inl (by rw [hw]; exact List.mem_cons_of_mem _ hx)) rfl rfl fun _ hr => hr
    refine present hpop _ q fun _ => ?_
    have hfit := hf.writes w (by rw [hw]; exact List.mem_cons_self ..)
    cases w <;> exact hfit
  · rw [hf.attachRead] at hr
    cases hr
  · exact present (hfair n) _ q fun _ => rfl
  · exact present (hfair n) _ q fun _ => rfl
  · have hissue : EpochStep s { s with dp := { s.dp with fairness := n }, hq := s.hq.issue e } := by
      refine Beside.toEpochStep (Beside.entries_mapped
        (t := { s with dp := { s.dp with fairness := n }, hq := s.hq.issue e })
        (f := fun x => if x.order = e then { x with issued := true } else x) rfl rfl fun x => ?_)
      split
      · exact ⟨rfl, fun _ => rfl⟩
      · exact ⟨rfl, id⟩
    exact present hissue _ q fun _ => rfl
  · exact present (hfair n) _ q fun _ => rfl

theorem reissue {s t : State} {f : MemFailure} (h : s.reissue f = some t) : EpochStep s t := by
  obtain ⟨a, ha, rfl⟩ := State.reissue_cases h
  refine ⟨fun hf => ?_, fun _ ho => ho, fun _ hr => hr⟩
  obtain ⟨h1, h2, h3, h4, h5, h6, h7, h8, h9, h10, h11⟩ := hf
  refine ⟨h1, h2, h3, h4, h5, h6, h7, h8, h9, fun b hb => ?_, h11⟩
  obtain rfl := Option.some.inj hb
  exact h10 a (by rw [ha]; exact rfl)

theorem portFreed (s : State) : EpochStep s s.portFreed := (Beside.portFreed s).toEpochStep

theorem removed (s : State) (n : Nat) : EpochStep s { s.portFreed with hq := s.hq.remove n } :=
  (portFreed s).trans (Beside.toEpochStep (Beside.entries_kept
    (t := { s.portFreed with hq := s.hq.remove n }) rfl (List.filter_subset_self _)))

theorem copyFailed (s : State) (name : CopyName) : EpochStep s (s.copyFailed name) := by
  refine log rfl ?_ ?_ ?_ ?_ <;> simp only [State.copyFailed_lc, LogState.setCopy_writes, LogState.setCopy_attachRead,
    LogState.setCopy_nextSerial, LogState.setCopy_durable, LogState.setCopy_live]
  · exact fun _ w hw => .inl hw
  · exact fun _ h => h

/-- The acceptance of a detach in ONLINE or FENCED (R150). -/
theorem beginDetach (s : State) : EpochStep s s.beginDetach := by
  refine of_fits fun hf => ?_
  have hop : s.beginDetach.oc.op = .detaching := by
    have := Controller.active_iff.mp hf.active
    simp [State.beginDetach, this]
  have hlc : EpochStep s { s with lc := { s.lc with writes := [], attachRead := .none } } :=
    log rfl (fun _ w hw => by cases hw) hf.attachRead.symm rfl fun _ hr => hr
  refine hlc.trans (control rfl rfl rfl rfl (fun h => ?_) (List.Sublist.refl _) fun x hx => ⟨x, hx, rfl⟩)
  rw [hop] at h
  rcases h with h | h <;> cases h

theorem resume {s t : State} (h : s.resume.leaves t) : EpochStep s t := by
  refine of_fits fun hf => ?_
  obtain ⟨-, -, -, hrec⟩ := Controller.mode_of_active hf.active
  obtain ⟨-, ⟨hh, -⟩ | ⟨-, hop, rfl⟩⟩ := State.resume_cases h
  · simp [State.recoveryHalted, hrec] at hh
  · have hidle := hf.rolling (.inr hop)
    refine ⟨fun hf => ?_, fun _ ho => ho, fun _ hr => hr⟩
    obtain ⟨h1, h2, h3, h4, h5, -, h7, -, h9, h10, h11⟩ := hf
    exact ⟨h1, h2, h3, h4, h5, fun h => (by cases h), fun _ => h7 hidle, fun _ h => (by cases h), h9, h10, h11⟩

theorem discard {s t : State} (h : s.discard.leaves t) : EpochStep s t := by
  obtain ⟨-, -, ⟨-, rfl⟩ | ⟨-, rfl⟩⟩ := State.discard_cases h
  · have hstop : ∀ u : State, EpochStep u u.stopTimer := fun _ => same rfl
    have hanchor : ∀ u : State, EpochStep u { u with re := { u.re with purpose := .discard, stage := .anchoring } } :=
      fun _ => restore rfl (fun _ h => by cases h) (fun _ _ h => by cases h) (fun _ _ h => by cases h)
    exact (discardLevels s).trans ((hstop _).trans ((hanchor _).trans (queueWrite _ rfl)))
  · exact (discardLevels s).trans (discardAnchored _)

theorem thaw {s t : State} (h : s.thaw.leaves t) : EpochStep s t := by
  obtain ⟨-, -, ht⟩ := State.thaw_cases h
  have honline : EpochStep s { s with oc := { s.oc with mode := .online, fence := .none } } := by
    refine ⟨fun hf => ?_, fun _ ho => ho, fun _ hr => hr⟩
    obtain ⟨-, h2, -, h4, h5, h6, h7, h8, h9, h10, h11⟩ := hf
    exact ⟨rfl, h2, ⟨fun _ h => (by cases h), fun _ => rfl⟩, h4, h5, h6, h7, h8, h9, h10, h11⟩
  rcases ht with rfl | rfl
  · exact honline
  · exact honline.trans (startTimer _)

theorem settle {s t : State} (h : s.settle = some t) : EpochStep s t := by
  obtain ⟨hst, -, ⟨c, n, rfl⟩ | rfl⟩ := State.settle_cases h
  · exact haltRollback s c n (by rw [hst]; decide)
  · exact restore rfl (fun _ h => by cases h) (fun hf _ => hf.purpose (by rw [hst]; decide)) (fun _ _ h => by cases h)

theorem orderingEnds {s t : State} (h : s.orderingEnds = some t) : EpochStep s t := by
  obtain ⟨-, ⟨-, rfl⟩ | ⟨-, rfl⟩ | ⟨hg, rfl⟩⟩ := State.orderingEnds_cases h
  · exact (endForDeadLog s).trans (Beside.enterFence _ (by decide) _).toEpochStep
  · exact (failOpen s _).trans (endOperation _)
  · have hlive : s.lc.live ≠ s.log.slots := fun hl => by
      unfold State.slotAnswer at hg
      split at hg
      · cases hg
      · simp at hg
    have hstart := markLevel (s.reserve .marker s.oc.depth s.oc.innermost) s.oc.depth
      (fun l => { l with start := some s.lc.head }) fun _ => rfl
    exact (reserve _ _ _ hlive).trans (hstart.trans ((phase _ _).trans (queueWrite _ rfl)))

theorem setBar (s : State) : EpochStep s s.setBar := same rfl

theorem rotateWaitEnds {s t : State} (h : s.rotateWaitEnds = some t) : EpochStep s t := by
  obtain ⟨-, -, x, hx, ⟨hfree, rfl⟩ | ⟨-, rfl⟩⟩ := State.rotateWaitEnds_cases h
  · have hlive : s.lc.live ≠ s.log.slots := fun hl => by
      unfold State.freeSlots at hfree
      omega
    have hreserve : EpochStep s.setBar (s.setBar.reserve .marker 1 x.serial) := reserve _ _ _ hlive
    have hmarker : EpochStep (s.setBar.reserve .marker 1 x.serial)
        ((s.setBar.reserve .marker 1 x.serial).setSuccessorMarker s.lc.head) := by
      refine control rfl rfl rfl rfl id (List.Sublist.refl _) fun y hy => ?_
      rw [State.setSuccessorMarker_oc] at hy
      obtain ⟨z, hz, rfl⟩ := Option.mem_map.mp hy
      exact ⟨z, hz, rfl⟩
    exact (setBar s).trans (hreserve.trans (hmarker.trans ((phase _ _).trans (queueWrite _ rfl))))
  · exact (setBar s).trans ((phase _ _).trans (queueWrite _ rfl))

theorem anchorWritten {s t : State} (h : s.anchorWritten = some t) : EpochStep s t := by
  refine of_fits fun hf => ?_
  obtain ⟨job, he, rfl⟩ := State.anchorWritten_cases h
  have hring : EpochStep s (s.portFreed.anchored job) := (portFreed s).trans (anchored _ job)
  refine hring.trans (anchorDone (hf.owner he) fun ho => ?_)
  have hlive : (s.portFreed.anchored job).lc.live = 0 := by
    unfold State.anchored LogState.anchored
    simp [ho, AnchorOccasion.atHead]
  rw [hlive]
  exact hf.slots.symm

end EpochStep

/-- Every command but the completion of a detach and a pin reset is an epoch step. -/
theorem Does.epochStep {c : Instr} {s t : State} (h : Does c s t) (hf : s.epochsFit) (hreset : c ≠ .pinReset)
    (hdetach : c ≠ .detachComplete) : EpochStep s t := by
  obtain ⟨hoff, hatt, hsus, hrec⟩ := Controller.mode_of_active hf.active
  cases c
  case pinReset => exact absurd rfl hreset
  case detachComplete => exact absurd rfl hdetach
  case resetnRelease | responseToAbandonedRequest | frameBegin | frameError | nop | status =>
    obtain rfl : t = _ := h
    exact EpochStep.same rfl
  case faultAssertion =>
    obtain ⟨-, rfl | rfl⟩ := State.assertFault_cases h
    · exact .same rfl
    · exact EpochStep.trans (t := { s with oc := { s.oc with faultLine := true } }) (.same rfl) (.takeAssertion _)
  case faultDeassertion =>
    obtain rfl := State.deassertFault_cases h
    exact .same rfl
  case faultLatchTaken =>
    obtain ⟨-, ⟨-, rfl⟩ | ⟨-, rfl⟩⟩ := State.takeLatch_cases h
    · exact EpochStep.trans (t := { s with oc := { s.oc with latch := false } }) (.same rfl) (.actOnFault _)
    · exact (Beside.dropLatch s).toEpochStep
  case upstreamRequest r =>
    obtain ⟨-, rfl⟩ := State.receive_cases h
    have hreceived : EpochStep s { s with up := { s.up with
        state := .stalled .situation r, received := s.up.received + 1 } } := .same rfl
    exact hreceived.trans (Beside.toEpochStep (Beside.decideRequest _ r (by exact hoff)))
  case rotationTimerExpiry =>
    obtain rfl | ⟨-, rfl⟩ | ⟨-, rfl⟩ := State.timerExpires_cases h
    · exact .startTimer s
    · exact (EpochStep.startTimer s).trans (.timerRotation _)
    · exact .same rfl
  case pendingRotationTaken =>
    obtain ⟨-, rfl⟩ := State.takePendingRotation_cases h
    exact EpochStep.trans (t := { s with oc := { s.oc with rotationPending := false } }) (.same rfl) (.timerRotation _)
  case consideration =>
    obtain ⟨e, level, -, -, -, -, rfl⟩ := State.consider_cases h
    exact (Beside.considerAt s e level).toEpochStep
  case downstreamGrant => exact .grant h
  case downstreamReissue => exact .reissue h
  case masterReadComplete =>
    obtain ⟨-, rfl | ⟨p, -, rfl⟩⟩ := State.readEnds_cases h
    · exact .portFreed s
    · exact (EpochStep.portFreed s).trans (.same rfl)
  case masterWriteComplete =>
    obtain ⟨n, -, rfl | rfl | rfl⟩ := State.writeEnds_cases h
    · exact .portFreed s
    · exact .removed s n
    · exact (EpochStep.removed s n).trans (.same rfl)
  case masterWriteFailed =>
    obtain ⟨n, -, rfl | ⟨e, rfl⟩ | rfl⟩ := State.writeFails_cases h
    · exact .portFreed s
    · exact (EpochStep.removed s n).trans (.same rfl)
    · exact (EpochStep.removed s n).trans (.same rfl)
  case captureReadComplete =>
    obtain ⟨i, -, rfl | ⟨x, -, rfl⟩⟩ := State.captureRead_cases h
    · exact .portFreed s
    · exact (EpochStep.portFreed s).trans (.same rfl)
  case capturePayloadWriteComplete =>
    obtain ⟨i, -, rfl | ⟨x, -, rfl⟩⟩ := State.capturePayload_cases h
    · exact .portFreed s
    · exact (EpochStep.portFreed s).trans (.same rfl)
  case captureHeaderWriteComplete =>
    obtain ⟨i, -, rfl | ⟨x, -, rfl⟩⟩ := State.captureHeader_cases h
    · exact .portFreed s
    · exact ((Beside.portFreed s).trans ((Beside.setContext _ i _).trans (Beside.slotWritten _ _))).toEpochStep.trans
        (.advanceMark _)
  case captureRequestFailed =>
    obtain ⟨i, part, -, rfl | ⟨x, -, -, rfl⟩⟩ := State.captureFails_cases h
    · exact .portFreed s
    · exact ((Beside.portFreed s).trans (Beside.captureFailed _ _ _ _)).toEpochStep
  case markerWriteComplete =>
    obtain ⟨slot, -, rfl⟩ := State.markerWritten_cases h
    exact ((Beside.portFreed s).trans (Beside.slotWritten _ _)).toEpochStep.trans (.advanceMark _)
  case voidWriteComplete =>
    obtain ⟨slot, -, rfl⟩ := State.voidWritten_cases h
    exact ((Beside.portFreed s).trans (Beside.slotWritten _ _)).toEpochStep.trans (.advanceMark _)
  case markerWriteFailed =>
    obtain ⟨slot, -, ⟨-, rfl⟩ | ⟨-, rfl⟩⟩ := State.markerWriteFails_cases h
    · exact .portFreed s
    · exact ((Beside.portFreed s).trans (Beside.slotFailed _ _ _)).toEpochStep
  case voidWriteFailed =>
    obtain ⟨slot, -, ⟨-, rfl⟩ | ⟨-, rfl⟩⟩ := State.voidWriteFails_cases h
    · exact .portFreed s
    · exact (EpochStep.portFreed s).trans (.declareDead _ _)
  case anchorWriteComplete => exact .anchorWritten h
  case anchorWriteFailed =>
    obtain ⟨job, -, ⟨-, rfl⟩ | ⟨-, hm, -⟩ | ⟨-, -, rfl⟩⟩ := State.anchorWriteFails_cases h
    · exact (EpochStep.portFreed s).trans (.copyFailed _ _)
    · exact absurd hm hatt
    · exact (EpochStep.portFreed s).trans ((EpochStep.copyFailed _ _).trans (.declareDead _ _))
  case anchorReadComplete =>
    obtain ⟨o, f, rfl | ⟨a, rfl⟩, he, -⟩ | ⟨d, -, he, -⟩ | ⟨a, d, -, he, -⟩ := State.anchorRead_cases h
    all_goals exact Bool.noConfusion (hf.owner he)
  case tailReadComplete =>
    obtain ⟨o, rfl | ⟨d, rfl⟩, he, -⟩ := State.tailRead_cases h
    all_goals exact Bool.noConfusion (hf.owner he)
  case replayReadComplete =>
    obtain ⟨hst, -, -, ⟨d, rfl⟩ | ⟨d, p, rfl⟩ | ⟨x, rfl⟩⟩ := State.replayRead_cases h
    all_goals have hidle : s.re.stage ≠ .idle := by rw [hst]; decide
    · exact (EpochStep.portFreed s).trans (.restore rfl (fun hf => hf.notScanning) (fun hf => hf.purpose)
        (fun hf => hf.rolling))
    · exact (EpochStep.portFreed s).trans (.replayRecord _ _ _ hidle)
    · exact (EpochStep.portFreed s).trans (.haltSlot _ _ hidle)
  case restoreWriteComplete =>
    obtain ⟨hst, -, -, rfl | ⟨x, rfl⟩⟩ := State.restoreEnds_cases h
    all_goals have hidle : s.re.stage ≠ .idle := by rw [hst]; decide
    · refine (EpochStep.portFreed s).trans (EpochStep.trans ?_ (.slotDone _ hidle))
      exact .restore rfl (fun hf => hf.notScanning) (fun hf => hf.purpose) (fun hf => hf.rolling)
    · exact (EpochStep.portFreed s).trans (.haltSlot _ _ hidle)
  case scanReadComplete => exact absurd (State.scanRead_cases h).1 hf.notScanning
  case recoveryReadComplete =>
    obtain ⟨hst, hp, -⟩ := State.recoveryRead_cases h
    exact absurd hp (hf.purpose (by rw [hst]; decide))
  case recoveryRestoreComplete =>
    obtain ⟨hst, hp, -⟩ := State.recoveryRestoreEnds_cases h
    exact absurd hp (hf.purpose (by rw [hst]; decide))
  case attachDrainEnd =>
    obtain ⟨a, -, hm, -⟩ := State.drainEnds_cases h
    exact absurd hm hatt
  case orderingWaitEnd => exact .orderingEnds h
  case commitWaitEnd =>
    obtain ⟨-, -, rfl⟩ := State.commitWaitEnds_cases h
    exact (EpochStep.setBar s).trans ((EpochStep.phase _ _).trans (.queueWrite _ rfl))
  case rotateWaitEnd => exact .rotateWaitEnds h
  case settlingEnd => exact .settle h
  case attachKeep | attachFormat => exact absurd (State.attach_cases h).1 hoff
  case recover => exact absurd (State.recover_cases h).1 hsus
  case detach =>
    obtain ⟨-, rfl⟩ := State.detach_cases h
    exact .beginDetach s
  case openEpoch =>
    obtain ⟨-, -, h6, hn, rfl⟩ := State.openEpoch_cases h
    exact .pushLevel hn h6
  case commit =>
    obtain ⟨-, -, base, top, -, ⟨-, rfl⟩ | ⟨-, rfl⟩⟩ := State.commit_cases h
    · exact .commitInner s _ _
    · refine .control rfl rfl rfl rfl (fun h => ?_) (List.Sublist.refl _) fun x hx => ⟨x, hx, rfl⟩
      rcases h with h | h <;> cases h
  case rotate =>
    obtain ⟨-, -, -, hn, rfl⟩ := State.rotate_cases h
    exact .startRotation hn _
  case rollback =>
    obtain ⟨-, -, -, -, rfl⟩ := State.rollback_cases h
    exact .acceptRollback s _ _
  case abort =>
    obtain ⟨-, -, rfl⟩ := State.abort_cases h
    exact .restore rfl (fun hf => hf.notScanning) (fun hf => hf.purpose) (fun hf => hf.rolling)
  case resume => exact .resume h
  case discard => exact .discard h
  case thaw => exact .thaw h
  case setlog => exact absurd (State.setlog_cases h).1 hoff
  case setoptHighWaterMark =>
    obtain ⟨rfl, -⟩ := State.setOption_cases h
    exact (EpochStep.log (t := { s with lc := { s.lc with armed := true } }) rfl (fun _ _ hw => .inl hw) rfl rfl
      fun _ hr => hr).trans (.same rfl)
  all_goals
    have hframe := h.frame
    refine .same ?_
    simp only [State.core]
    rw [hframe .log (by simp [footprint]), hframe .hq (by simp [footprint]), hframe .lc (by simp [footprint]),
      hframe .re (by simp [footprint]), hframe .port (by simp [footprint]), hframe .oc (by simp [footprint])]

end Sys2Proof.Machine

/-! SUPPORT. The modes outside ONLINE and FENCED: what each promises, as one predicate, and the steps that leave it so. -/

namespace Sys2Proof.Machine

/-! ## What each mode promises -/

/-- The controller of a part in this mode, at which it is read what the mode allows. -/
def Controller.modeAtReset (m : Mode) : Controller := { Controller.reset with mode := m }

theorem Controller.active_eq_false {oc : Controller} :
    oc.active = false ↔ oc.mode = .offline ∨ oc.mode = .attaching ∨ oc.mode = .suspect ∨ oc.mode = .recovering := by
  unfold Controller.active
  cases oc.mode <;> simp

/-- Outside ONLINE and FENCED no operation, level or capture stands, and no fence. -/
structure State.atRest (s : State) : Prop where
  op : s.oc.op = .idle
  phase : s.oc.phase = .none
  stack : s.oc.stack = []
  successor : s.oc.successor = none
  fence : s.oc.fence = .none
  reservations : s.lc.reservations = []
  contexts : ∀ c ∈ s.ce.contexts, c = none

/-- Nothing stands in the log's queues, and the port carries no request but the master's. -/
structure State.unasked (s : State) : Prop where
  stage : s.re.stage = .idle
  writes : s.lc.writes = []
  attachRead : s.lc.attachRead = .none
  port : ∀ a ∈ s.dp.port, a.owner.requester = .masterPath

/-- A configured log, with no HELD write to it. -/
structure State.logReady (s : State) : Prop where
  slots : s.log.slots ≠ 0
  heldLog : ∀ e ∈ s.hq.entries, e.cls = .log → e.issued = true

/-- What OFFLINE promises. -/
structure State.offlineFit (s : State) : Prop extends s.atRest, s.unasked where
  mode : s.oc.mode = .offline
  attach : s.oc.attach = none

/-- What SUSPECT promises. -/
structure State.suspectFit (s : State) : Prop extends s.atRest, s.unasked, s.logReady where
  mode : s.oc.mode = .suspect
  attach : s.oc.attach = none

/-- What ATTACHING promises: the LC does one thing of the attach at a time. -/
structure State.attachingFit (s : State) : Prop extends s.atRest, s.logReady where
  mode : s.oc.mode = .attaching
  attach : s.oc.attach ≠ none
  stage : s.re.stage = .idle
  writes : ∀ w ∈ s.lc.writes, w.fits (.modeAtReset .attaching) = true
  port : ∀ a ∈ s.dp.port, a.owner.fits (.modeAtReset .attaching) = true
  single : s.lc.writes.length ≤ 1
  reading : s.lc.attachRead ≠ .none → s.lc.writes = []
  anchoring : s.anchorInFlight = true → s.lc.writes = [] ∧ s.lc.attachRead = .none
  asked : s.lcInFlight = true → s.anchorInFlight = false → s.lc.attachRead ≠ .none
  draining : (s.oc.attach.any fun a => decide (a.phase = .draining)) = true →
    s.lc.writes = [] ∧ s.lc.attachRead = .none ∧ s.lcInFlight = false

/-- What RECOVERING promises: the LC has the final anchor to write, and nothing before it. -/
structure State.recoveringFit (s : State) : Prop extends s.atRest, s.logReady where
  mode : s.oc.mode = .recovering
  attach : s.oc.attach = none
  purpose : s.re.purpose = .recovery
  running : s.re.stage ≠ .idle ∧ s.re.stage ≠ .settling
  writes : ∀ w ∈ s.lc.writes, w.fits (.modeAtReset .recovering) = true
  port : ∀ a ∈ s.dp.port, a.owner.fits (.modeAtReset .recovering) = true
  attachRead : s.lc.attachRead = .none
  single : s.lc.writes.length ≤ 1
  early : s.re.stage ≠ .anchoring → s.lc.writes = [] ∧ s.lcInFlight = false
  anchoring : s.lcInFlight = true → s.lc.writes = []

section
variable {s : State}

theorem State.atRest_of_orderly (h : s.orderly) (ha : s.oc.active = false) : s.atRest := by
  obtain ⟨⟨-, hfence, hidle, -, -⟩, -⟩ := h
  obtain ⟨hop, hphase, hstack, hsucc, hres, hctx⟩ := hidle ha
  refine ⟨hop, hphase, hstack, hsucc, hfence.mpr fun hm => ?_, hres, hctx⟩
  rw [Controller.active, hm] at ha
  exact Bool.noConfusion ha

theorem AnchorOccasion.fits_rest {m : Mode} (hm : m = .offline ∨ m = .suspect) (o : AnchorOccasion) :
    o.fits (.modeAtReset m) = false := by
  rcases hm with rfl | rfl <;> cases o <;> rfl

/-- A mode in which the LC has nothing to write. -/
theorem LogWrite.fits_rest {m : Mode} (hm : m = .offline ∨ m = .suspect) (w : LogWrite) :
    w.fits (.modeAtReset m) = false := by
  cases w
  case anchor o => exact AnchorOccasion.fits_rest hm o
  all_goals rcases hm with rfl | rfl <;> rfl

theorem Owner.fits_rest {m : Mode} (hm : m = .offline ∨ m = .suspect) (o : Owner) :
    o.fits (.modeAtReset m) = true ↔ o.requester = .masterPath := by
  cases o
  case lcAnchor job =>
    exact ⟨fun h => Bool.noConfusion ((AnchorOccasion.fits_rest hm job.occasion).symm.trans h), nofun⟩
  case masterWrite | masterRead => exact ⟨fun _ => rfl, fun _ => rfl⟩
  all_goals
    refine ⟨fun h => ?_, nofun⟩
    rcases hm with rfl | rfl <;> exact Bool.noConfusion h

theorem State.unasked_of_orderly (h : s.orderly) (hm : s.oc.mode = .offline ∨ s.oc.mode = .suspect) : s.unasked := by
  obtain ⟨-, hstage, hwrites, hport, hread, -, -⟩ := h
  refine ⟨hstage.1 (hm.imp id .inr), ?_, ?_, fun a ha => ?_⟩
  · refine List.eq_nil_iff_forall_not_mem.mpr fun w hw => ?_
    have hfit := (LogWrite.fits_congr (a := .modeAtReset s.oc.mode) (b := s.oc) rfl w).trans (hwrites w hw)
    exact Bool.noConfusion ((LogWrite.fits_rest hm w).symm.trans hfit)
  · by_contra hne
    have hatt := hread hne
    rcases hm with hm | hm <;> exact Mode.noConfusion (hm.symm.trans hatt)
  · exact (Owner.fits_rest hm a.owner).mp
      ((Owner.fits_congr (a := .modeAtReset s.oc.mode) (b := s.oc) rfl a.owner).trans (State.portAll_iff.mp hport a ha))

theorem State.logReady_of_orderly (h : s.orderly) (hm : s.oc.mode ≠ .offline) : s.logReady := by
  obtain ⟨⟨-, -, -, hslots, hlog⟩, -⟩ := h
  exact ⟨hslots hm, hlog hm⟩

/-- Every orderly part fits its mode. -/
theorem State.orderly_cases (h : s.orderly) :
    s.offlineFit ∨ s.attachingFit ∨ s.suspectFit ∨ s.recoveringFit ∨ s.epochsFit := by
  have h' := h
  obtain ⟨⟨hattach, -, -, -, -⟩, hstage, hwrites, hport, hread, hatt, hrec⟩ := h'
  have hout (m : Mode) (hm : s.oc.mode = m) (w : LogWrite) (hw : w ∈ s.lc.writes) : w.fits (.modeAtReset m) = true :=
    (LogWrite.fits_congr (a := s.oc) (b := .modeAtReset m) hm w).symm.trans (hwrites w hw)
  have hown (m : Mode) (hm : s.oc.mode = m) (a : ActiveRequest) (ha : a ∈ s.dp.port) :
      a.owner.fits (.modeAtReset m) = true :=
    (Owner.fits_congr (a := s.oc) (b := .modeAtReset m) hm a.owner).symm.trans (State.portAll_iff.mp hport a ha)
  cases hm : s.oc.mode
  case offline =>
    have hrest := State.atRest_of_orderly h (Controller.active_eq_false.mpr (.inl hm))
    exact .inl ⟨hrest, State.unasked_of_orderly h (.inl hm), hm, hattach.mpr (by simp [hm])⟩
  case attaching =>
    have hrest := State.atRest_of_orderly h (Controller.active_eq_false.mpr (.inr (.inl hm)))
    obtain ⟨hsingle, hreading, hanchoring, hasked, hdraining⟩ := hatt hm
    exact .inr (.inl ⟨hrest, State.logReady_of_orderly h (by simp [hm]), hm, fun hn => hattach.mp hn hm,
      hstage.1 (.inr (.inl hm)), hout _ hm, hown _ hm, hsingle, hreading, hanchoring, hasked, hdraining⟩)
  case suspect =>
    have hrest := State.atRest_of_orderly h (Controller.active_eq_false.mpr (.inr (.inr (.inl hm))))
    exact .inr (.inr (.inl ⟨hrest, State.unasked_of_orderly h (.inr hm), State.logReady_of_orderly h (by simp [hm]), hm,
      hattach.mpr (by simp [hm])⟩))
  case recovering =>
    have hrest := State.atRest_of_orderly h (Controller.active_eq_false.mpr (.inr (.inr (.inr hm))))
    obtain ⟨hpurpose, hidle, hsettling⟩ := hstage.2.1 hm
    obtain ⟨hsingle, hearly, hanchoring⟩ := hrec hm
    refine .inr (.inr (.inr (.inl ⟨hrest, State.logReady_of_orderly h (by simp [hm]), hm, hattach.mpr (by simp [hm]),
      hpurpose, ⟨hidle, hsettling⟩, hout _ hm, hown _ hm, ?_, hsingle, hearly, hanchoring⟩)))
    by_contra hne
    exact Mode.noConfusion (hm.symm.trans (hread hne))
  case online => exact .inr (.inr (.inr (.inr ((State.orderly_iff_epochsFit (Controller.active_iff.mpr (.inl hm))).mp h))))
  case fenced => exact .inr (.inr (.inr (.inr ((State.orderly_iff_epochsFit (Controller.active_iff.mpr (.inr hm))).mp h))))

theorem State.epochsFit.orderly (h : s.epochsFit) : s.orderly := (State.orderly_iff_epochsFit h.active).mpr h

theorem State.atRest.idleOutside (h : s.atRest) : s.idleOutside :=
  fun _ => ⟨h.op, h.phase, h.stack, h.successor, h.reservations, h.contexts⟩

theorem State.atRest.notRolling (h : s.atRest) : ¬(s.oc.op = .rolling ∨ s.oc.op = .halted) := by
  rw [h.op]
  exact nofun

theorem State.unasked.lcInFlight (h : s.unasked) : s.lcInFlight = false := by
  unfold State.lcInFlight
  cases hp : s.dp.port with
  | none => rfl
  | some a => simp [h.port a (by rw [hp]; exact rfl)]

/-- OFFLINE and SUSPECT ask the log for nothing. -/
theorem State.requestsFit_of_unasked (hr : s.atRest) (hu : s.unasked)
    (hm : s.oc.mode = .offline ∨ s.oc.mode = .suspect) : s.requestsFit := by
  have hmode : s.oc.mode ≠ .attaching ∧ s.oc.mode ≠ .recovering ∧ s.oc.active ≠ true := by
    rcases hm with hm | hm <;> simp [Controller.active, hm]
  refine ⟨⟨fun _ => hu.stage, fun h => absurd h hmode.2.1, fun h => absurd h hmode.2.2, fun h => absurd h hr.notRolling⟩,
    fun w hw => ?_, State.portAll_iff.mpr fun a ha => ?_, fun h => absurd hu.attachRead h, fun h => absurd h hmode.1,
    fun h => absurd h hmode.2.1⟩
  · rw [hu.writes] at hw
    cases hw
  · exact (Owner.fits_congr (a := s.oc) (b := .modeAtReset s.oc.mode) rfl a.owner).trans
      ((Owner.fits_rest hm a.owner).mpr (hu.port a ha))

theorem State.offlineFit.orderly (h : s.offlineFit) : s.orderly :=
  ⟨⟨⟨fun _ => by simp [h.mode], fun _ => h.attach⟩, ⟨fun _ => by simp [h.mode], fun _ => h.fence⟩,
    h.toatRest.idleOutside, fun hm => absurd h.mode hm, fun hm => absurd h.mode hm⟩,
    State.requestsFit_of_unasked h.toatRest h.tounasked (.inl h.mode)⟩

theorem State.suspectFit.orderly (h : s.suspectFit) : s.orderly :=
  ⟨⟨⟨fun _ => by simp [h.mode], fun _ => h.attach⟩, ⟨fun _ => by simp [h.mode], fun _ => h.fence⟩,
    h.toatRest.idleOutside, fun _ => h.slots, fun _ => h.heldLog⟩,
    State.requestsFit_of_unasked h.toatRest h.tounasked (.inr h.mode)⟩

theorem State.attachingFit.orderly (h : s.attachingFit) : s.orderly := by
  have hm := h.mode
  refine ⟨⟨⟨fun ha => absurd ha h.attach, fun hne => absurd hm hne⟩, ⟨fun _ => by simp [hm], fun _ => h.fence⟩,
    h.toatRest.idleOutside, fun _ => h.slots, fun _ => h.heldLog⟩, ⟨fun _ => h.stage, fun h => ?_, fun h => ?_,
    fun hr => absurd hr h.notRolling⟩, fun w hw => ?_, State.portAll_iff.mpr fun a ha => ?_, fun _ => hm,
    fun _ => ⟨h.single, h.reading, h.anchoring, h.asked, h.draining⟩, fun h => ?_⟩
  · exact Mode.noConfusion (hm.symm.trans h)
  · rw [Controller.active, hm] at h
    exact Bool.noConfusion h
  · exact (LogWrite.fits_congr (a := s.oc) (b := .modeAtReset .attaching) hm w).trans (h.writes w hw)
  · exact (Owner.fits_congr (a := s.oc) (b := .modeAtReset .attaching) hm a.owner).trans (h.port a ha)
  · exact Mode.noConfusion (hm.symm.trans h)

theorem State.recoveringFit.orderly (h : s.recoveringFit) : s.orderly := by
  have hm := h.mode
  refine ⟨⟨⟨fun _ => by simp [hm], fun _ => h.attach⟩, ⟨fun _ => by simp [hm], fun _ => h.fence⟩,
    h.toatRest.idleOutside, fun _ => h.slots, fun _ => h.heldLog⟩, ⟨fun h => ?_, fun _ => ⟨h.purpose, h.running⟩,
    fun h => ?_, fun hr => absurd hr h.notRolling⟩, fun w hw => ?_, State.portAll_iff.mpr fun a ha => ?_,
    fun hne => absurd h.attachRead hne, fun h => ?_, fun _ => ⟨h.single, h.early, h.anchoring⟩⟩
  · rw [hm] at h
    rcases h with h | h | h <;> cases h
  · rw [Controller.active, hm] at h
    exact Bool.noConfusion h
  · exact (LogWrite.fits_congr (a := s.oc) (b := .modeAtReset .recovering) hm w).trans (h.writes w hw)
  · exact (Owner.fits_congr (a := s.oc) (b := .modeAtReset .recovering) hm a.owner).trans (h.port a ha)
  · exact Mode.noConfusion (hm.symm.trans h)

end

end Sys2Proof.Machine

/-! SUPPORT. The steps outside ONLINE and FENCED: what they keep of the mode's promises, of the ring, of the filter, and
how epochs begin. -/

namespace Sys2Proof.Machine

/-- What a step from outside ONLINE and FENCED leaves: an orderly part, a bounded ring, an empty filter, and where it
ends in one of the two, no level and nothing asked. -/
structure OuterStep (s t : State) : Prop where
  orderly : t.orderly
  ring : s.ringBounded → t.ringBounded
  filter : s.cf = [] → t.cf = []
  begins : t.oc.active = true → t.oc.stack = [] ∧ t.oc.successor = none ∧ t.operationFits

/-- A master's request fits every mode. -/
theorem Owner.fits_of_master {o : Owner} (oc : Controller) (ho : o.requester = .masterPath) : o.fits oc = true := by
  cases o
  case masterWrite => rfl
  case masterRead => rfl
  all_goals cases ho

theorem Owner.not_anchor_of_master {o : Owner} (ho : o.requester = .masterPath) : o.isAnchor = false := by
  cases o
  case lcAnchor => cases ho
  all_goals rfl

section
variable {s t : State}

/-- A step that stays outside. -/
theorem OuterStep.stays (ho : t.orderly) (ha : t.oc.active = false) (hr : s.ringBounded → t.ringBounded)
    (hcf : s.cf = [] → t.cf = []) : OuterStep s t :=
  ⟨ho, hr, hcf, fun h => Bool.noConfusion (ha.symm.trans h)⟩

/-- A step that stays in its mode, ring and restore engine and filter as they were. -/
theorem OuterStep.still (ha : s.oc.active = false) (ho : t.orderly) (hm : t.oc.mode = s.oc.mode)
    (hlc : t.lc.durable = s.lc.durable ∧ t.lc.live = s.lc.live) (hlog : t.log = s.log) (hre : t.re = s.re)
    (hcf : t.cf = s.cf) : OuterStep s t := by
  refine .stays ho ((Controller.active_congr hm).trans ha) (fun h => ?_) fun h => hcf.trans h
  unfold State.ringBounded at h ⊢
  rwa [hlc.1, hlc.2, hlog, hre, hm]

/-- Orderly is what the core and the contexts say. -/
theorem State.orderly_congr (hs : s.orderly) (h : t.core = s.core)
    (hce : (∀ c ∈ s.ce.contexts, c = none) → ∀ c ∈ t.ce.contexts, c = none) : t.orderly := by
  simp only [State.core, Prod.mk.injEq] at h
  obtain ⟨hlog, hhq, hlc, hre, hport, hmode, hfence, hattach, hop, hphase, hstack, hsucc⟩ := h
  have hact : t.oc.active = s.oc.active := Controller.active_congr hmode
  obtain ⟨⟨h1, h2, h3, h4, h5⟩, ⟨h6, h7, h8, h9⟩, h10, h11, h12, h13, h14⟩ := hs
  have hflight : t.lcInFlight = s.lcInFlight ∧ t.anchorInFlight = s.anchorInFlight := by
    unfold State.lcInFlight State.anchorInFlight
    rw [hport]
    exact ⟨rfl, rfl⟩
  refine ⟨⟨?_, ?_, fun ha => ?_, ?_, ?_⟩, ⟨?_, ?_, ?_, ?_⟩, fun w hw => ?_, State.portAll_iff.mpr fun a ha => ?_, ?_,
    ?_, ?_⟩
  · rw [hattach, hmode]; exact h1
  · rw [hfence, hmode]; exact h2
  · obtain ⟨ho, hp, hst, hsu, hrs, hcx⟩ := h3 (hact ▸ ha)
    exact ⟨hop.trans ho, hphase.trans hp, hstack.trans hst, hsucc.trans hsu, (congrArg _ hlc).trans hrs, hce hcx⟩
  · rw [hmode, hlog]; exact h4
  · rw [hmode, hhq]; exact h5
  · rw [hmode, hre]; exact h6
  · rw [hmode, hre]; exact h7
  · rw [hact, hre]; exact h8
  · rw [hop, hre]; exact h9
  · exact (LogWrite.fits_congr hmode w).trans (h10 w (hlc ▸ hw))
  · exact (Owner.fits_congr hmode a.owner).trans (State.portAll_iff.mp h11 a (hport ▸ ha))
  · rw [hmode, hlc]; exact h12
  · unfold State.attachFits at h13 ⊢
    rw [hmode, hlc, hflight.1, hflight.2, hattach]
    exact h13
  · unfold State.recoveryFits at h14 ⊢
    rw [hmode, hlc, hflight.1, hre]
    exact h14

/-- The hold queue may change, but outside OFFLINE no HELD write to the log is new. -/
theorem State.orderly_entries (hs : s.orderly) (h : ({ t with hq := s.hq } : State).core = s.core) (hce : t.ce = s.ce)
    (hq : s.oc.mode ≠ .offline → ∀ e ∈ t.hq.entries, e.cls = .log →
      ∃ x ∈ s.hq.entries, x.cls = .log ∧ (x.issued = true → e.issued = true)) : t.orderly := by
  have hu : ({ t with hq := s.hq } : State).orderly := State.orderly_congr hs h fun hn => by
    simpa only [hce] using hn
  have hmode : t.oc.mode = s.oc.mode := by
    simp only [State.core, Prod.mk.injEq] at h
    exact h.2.2.2.2.2.1
  obtain ⟨⟨h1, h2, h3, h4, h5⟩, hrest⟩ := hu
  refine ⟨⟨h1, h2, h3, h4, fun hm e he hlog => ?_⟩, hrest⟩
  have hm' : s.oc.mode ≠ .offline := hmode ▸ hm
  obtain ⟨x, hx, hcls, hissued⟩ := hq hm' e he hlog
  exact hissued (h5 hm x hx hcls)

theorem State.orderly_portFreed (hs : s.orderly) : s.portFreed.orderly := by
  obtain ⟨hmode, hstage, hwrites, -, hread, hatt, hrec⟩ := hs
  refine ⟨hmode, hstage, hwrites, rfl, hread, fun hm => ?_, fun hm => ?_⟩
  · obtain ⟨h1, h2, -, -, h5⟩ := hatt hm
    refine ⟨h1, h2, nofun, nofun, fun hd => ?_⟩
    obtain ⟨hw, hr, -⟩ := h5 hd
    exact ⟨hw, hr, rfl⟩
  · obtain ⟨h1, h2, -⟩ := hrec hm
    exact ⟨h1, fun hst => ⟨(h2 hst).1, rfl⟩, nofun⟩

theorem OuterStep.portFreed (hs : s.orderly) (ha : s.oc.active = false) : OuterStep s s.portFreed :=
  .still ha (State.orderly_portFreed hs) rfl ⟨rfl, rfl⟩ rfl rfl rfl

/-- Of the core and the filter nothing changes. -/
theorem OuterStep.same (hs : s.orderly) (ha : s.oc.active = false) (h : t.core = s.core) (hce : t.ce = s.ce)
    (hcf : t.cf = s.cf) : OuterStep s t := by
  have ho := State.orderly_congr hs h fun hn => by rwa [hce]
  simp only [State.core, Prod.mk.injEq] at h
  obtain ⟨hlog, -, hlc, hre, -, hmode, -⟩ := h
  exact .still ha ho hmode (by rw [hlc]; exact ⟨rfl, rfl⟩) hlog hre hcf

/-- A decision outside ONLINE and FENCED. -/
theorem OuterStep.decideRequest (hs : s.orderly) (ha : s.oc.active = false) (r : MemRequest) :
    OuterStep s (s.decideRequest r) := by
  have hframe := s.decideRequest_onlyChanges r
  have hoc := hframe .oc (by decide)
  have hlc := hframe .lc (by decide)
  refine .still ha (State.orderly_entries hs ?_ (hframe .ce (by decide)) fun hm e he hlog => ?_) (by rw [hoc])
    (by rw [hlc]; exact ⟨rfl, rfl⟩) (hframe .log (by decide)) (hframe .re (by decide)) (hframe .cf (by decide))
  · simp only [State.core]
    rw [hframe .log (by decide), hlc, hframe .re (by decide), hframe .port (by decide), hoc]
  · exact ⟨e, State.decideRequest_entries hm r e he hlog, hlog, id⟩

/-- What follows at once keeps an orderly part so. -/
theorem State.orderly_finish (b : State) (hs : s.orderly) : (finish b s).orderly := by
  have hre : (redecide b s).orderly := by
    rcases redecide_cases b s with h | ⟨_, r, -, h⟩ <;> rw [h]
    · exact hs
    · have hframe := s.decideRequest_onlyChanges r
      refine State.orderly_entries hs ?_ (hframe .ce (by decide)) fun hm e he hlog =>
        ⟨e, State.decideRequest_entries hm r e he hlog, hlog, id⟩
      simp only [State.core]
      rw [hframe .log (by decide), hframe .lc (by decide), hframe .re (by decide), hframe .port (by decide),
        hframe .oc (by decide)]
  refine State.orderly_congr hre rfl fun hn c hc => ?_
  obtain ⟨d, hd, rfl⟩ := List.mem_map.mp hc
  rw [hn d hd]
  rfl

/-! ## The port -/

/-- A request of the master path presented at an IDLE port. -/
theorem State.orderly_present_master (hs : s.orderly) (o : Owner) (q : MemRequest)
    (ho : o.requester = .masterPath) : (s.present o q).orderly := by
  have hfits := Owner.fits_of_master s.oc ho
  have hanchor := Owner.not_anchor_of_master ho
  have hlc : (s.present o q).lcInFlight = false := by simp [State.lcInFlight, State.present, ho]
  have hno : (s.present o q).anchorInFlight = false := by simp [State.anchorInFlight, State.present, hanchor]
  obtain ⟨hmode, hstage, hwrites, -, hread, hatt, hrec⟩ := hs
  refine ⟨hmode, hstage, hwrites, State.portAll_iff.mpr fun a ha => ?_, hread, fun hm => ?_, fun hm => ?_⟩
  · obtain rfl := Option.some.inj ha
    exact hfits
  · obtain ⟨h1, h2, -, -, h5⟩ := hatt hm
    rw [hlc, hno]
    exact ⟨h1, h2, nofun, nofun, fun hd => ⟨(h5 hd).1, (h5 hd).2.1, rfl⟩⟩
  · obtain ⟨h1, h2, -⟩ := hrec hm
    rw [hlc]
    exact ⟨h1, fun hst => ⟨(h2 hst).1, rfl⟩, nofun⟩

end

end Sys2Proof.Machine

/-! SUPPORT. What a part that has just come to ONLINE or FENCED is, and the steps of ATTACHING. -/

namespace Sys2Proof.Machine

section
variable {s t : State}

/-! ## Coming to ONLINE or FENCED, and what the modes say of one another -/

/-- A part that has just come to ONLINE or FENCED: nothing of it is in progress. -/
structure State.fresh (t : State) : Prop where
  active : t.oc.active = true
  attach : t.oc.attach = none
  fence : t.oc.fence = .none ↔ t.oc.mode ≠ .fenced
  op : t.oc.op = .idle
  phase : t.oc.phase = .none
  stack : t.oc.stack = []
  successor : t.oc.successor = none
  log : t.logReady
  stage : t.re.stage = .idle
  writes : t.lc.writes = []
  attachRead : t.lc.attachRead = .none
  reservations : t.lc.reservations = []
  port : t.dp.port = none

theorem State.fresh.epochsFit (h : t.fresh) : t.epochsFit := by
  refine ⟨h.active, h.attach, h.fence, h.log.slots, h.log.heldLog, ?_, fun hst => absurd h.stage hst, fun ho => ?_,
    fun w hw => ?_, fun a ha => ?_, h.attachRead⟩
  · rw [h.stage]
    exact nofun
  · rw [h.op] at ho
    rcases ho with ho | ho <;> cases ho
  · rw [h.writes] at hw
    cases hw
  · rw [h.port] at ha
    cases ha

theorem State.fresh.operationFits (h : t.fresh) : t.operationFits := by
  have hanchors : t.anchorsDue = [] := by simp [State.anchorsDue_eq, h.port, h.writes]
  have hmarkers : t.markersDue = [] := by simp [State.markersDue, h.reservations]
  refine ⟨?_, ?_, fun _ => ?_, ?_, ?_, ?_, ?_⟩
  · rw [if_pos h.phase, h.op]
    decide
  · rw [State.markersFit_iff, h.phase, h.stack]
    exact nofun
  · rw [h.stage]
    exact ⟨nofun, nofun, nofun⟩
  all_goals simp [hanchors, hmarkers]

theorem State.atRest.congr (h : s.atRest) (hoc : t.oc = s.oc) (hres : t.lc.reservations = []) (hce : t.ce = s.ce) :
    t.atRest := by
  refine ⟨?_, ?_, ?_, ?_, ?_, hres, ?_⟩
  · rw [hoc]; exact h.op
  · rw [hoc]; exact h.phase
  · rw [hoc]; exact h.stack
  · rw [hoc]; exact h.successor
  · rw [hoc]; exact h.fence
  · rw [hce]; exact h.contexts

theorem State.ringFits.bounded (h : t.ringFits) (hst : t.re.stage ≠ .scanning) (hm : t.oc.mode ≠ .recovering) :
    t.ringBounded := by
  refine ⟨h.1, h.2, fun hr => ?_, fun hr => absurd hr hm⟩
  rcases hr with hr | ⟨hr, -⟩
  · exact absurd hr hst
  · exact absurd hr hm

theorem OuterStep.begins_fresh (h : t.fresh) (hr : s.ringBounded → t.ringFits) (hcf : s.cf = [] → t.cf = []) :
    OuterStep s t := by
  refine ⟨h.epochsFit.orderly, fun hs => (State.ringBounded_iff_ringFits h.epochsFit).mpr (hr hs), hcf,
    fun _ => ⟨h.stack, h.successor, h.operationFits⟩⟩

theorem State.offlineFit_of_mode (h : s.orderly) (hm : s.oc.mode = .offline) : s.offlineFit := by
  rcases State.orderly_cases h with h | h | h | h | h
  · exact h
  · exact Mode.noConfusion (hm.symm.trans h.mode)
  · exact Mode.noConfusion (hm.symm.trans h.mode)
  · exact Mode.noConfusion (hm.symm.trans h.mode)
  · exact absurd hm (Controller.mode_of_active h.active).1

theorem State.attachingFit_of_mode (h : s.orderly) (hm : s.oc.mode = .attaching) : s.attachingFit := by
  rcases State.orderly_cases h with h | h | h | h | h
  · exact Mode.noConfusion (hm.symm.trans h.mode)
  · exact h
  · exact Mode.noConfusion (hm.symm.trans h.mode)
  · exact Mode.noConfusion (hm.symm.trans h.mode)
  · exact absurd hm (Controller.mode_of_active h.active).2.1

theorem State.suspectFit_of_mode (h : s.orderly) (hm : s.oc.mode = .suspect) : s.suspectFit := by
  rcases State.orderly_cases h with h | h | h | h | h
  · exact Mode.noConfusion (hm.symm.trans h.mode)
  · exact Mode.noConfusion (hm.symm.trans h.mode)
  · exact h
  · exact Mode.noConfusion (hm.symm.trans h.mode)
  · exact absurd hm (Controller.mode_of_active h.active).2.2.1

theorem State.recoveringFit_of_mode (h : s.orderly) (hm : s.oc.mode = .recovering) : s.recoveringFit := by
  rcases State.orderly_cases h with h | h | h | h | h
  · exact Mode.noConfusion (hm.symm.trans h.mode)
  · exact Mode.noConfusion (hm.symm.trans h.mode)
  · exact Mode.noConfusion (hm.symm.trans h.mode)
  · exact h
  · exact absurd hm (Controller.mode_of_active h.active).2.2.2

/-- Outside ONLINE and FENCED only a recovery runs the restore engine. -/
theorem State.recoveringFit_of_stage (h : s.orderly) (ha : s.oc.active = false) (hst : s.re.stage ≠ .idle) :
    s.recoveringFit := by
  rcases State.orderly_cases h with h | h | h | h | h
  · exact absurd h.stage hst
  · exact absurd h.stage hst
  · exact absurd h.stage hst
  · exact h
  · exact Bool.noConfusion (ha.symm.trans h.active)

/-- The request an outcome ends is one that the mode allows. -/
theorem State.owner_of_orderly (h : s.orderly) {o : Owner} {r : MemReply} (he : s.endsWith o r) :
    o.fits s.oc = true := by
  obtain ⟨a, ha, rfl, -⟩ := he
  obtain ⟨-, -, -, hport, -⟩ := h
  exact State.portAll_iff.mp hport a (by rw [ha]; exact rfl)

theorem State.anchorInFlight_of_lc (h : s.lcInFlight = false) : s.anchorInFlight = false := by
  unfold State.lcInFlight State.anchorInFlight at *
  cases hp : s.dp.port with
  | none => rfl
  | some a =>
    rw [hp] at h
    cases ho : a.owner
    case lcAnchor => simp [ho, Owner.requester] at h
    all_goals simp [ho, Owner.isAnchor]

theorem State.lcInFlight_of {o : Owner} {r : MemReply} (he : s.endsWith o r) :
    s.lcInFlight = decide (o.requester = .lc) ∧ s.anchorInFlight = o.isAnchor := by
  obtain ⟨a, ha, rfl, -⟩ := he
  unfold State.lcInFlight State.anchorInFlight
  rw [ha]
  exact ⟨rfl, rfl⟩

/-! ## ATTACHING -/

/-- A DRAINING attach. -/
def State.drains (s : State) : Bool := s.oc.attach.any fun a => decide (a.phase = .draining)

/-- An attach moves on: no request of the LC is in flight, and it has one thing to do at most. -/
theorem State.attachingFit.moves (hf : s.attachingFit) (hlog : t.log = s.log) (hhq : t.hq = s.hq) (hre : t.re = s.re)
    (hce : t.ce.contexts = s.ce.contexts) (hoc : t.oc = { s.oc with attach := t.oc.attach }) (hattach : t.oc.attach ≠ none)
    (hres : t.lc.reservations = []) (hport : ∀ a ∈ t.dp.port, a.owner.fits (.modeAtReset .attaching) = true)
    (hflight : t.lcInFlight = false) (hsingle : t.lc.writes.length ≤ 1)
    (hwrites : ∀ w ∈ t.lc.writes, w.fits (.modeAtReset .attaching) = true)
    (hreading : t.lc.attachRead ≠ .none → t.lc.writes = [])
    (hdrain : t.drains = true → t.lc.writes = [] ∧ t.lc.attachRead = .none) : t.attachingFit := by
  have hanchor := State.anchorInFlight_of_lc hflight
  refine ⟨⟨?_, ?_, ?_, ?_, ?_, hres, ?_⟩, ⟨?_, ?_⟩, ?_, hattach, ?_, hwrites, hport, hsingle, hreading, fun h => ?_,
    fun h => ?_, fun h => ?_⟩
  · rw [hoc]; exact hf.op
  · rw [hoc]; exact hf.phase
  · rw [hoc]; exact hf.stack
  · rw [hoc]; exact hf.successor
  · rw [hoc]; exact hf.fence
  · rw [hce]; exact hf.contexts
  · rw [hlog]; exact hf.slots
  · rw [hhq]; exact hf.heldLog
  · rw [hoc]; exact hf.mode
  · rw [hre]; exact hf.stage
  · exact Bool.noConfusion (hanchor.symm.trans h)
  · exact Bool.noConfusion (hflight.symm.trans h)
  · exact ⟨(hdrain h).1, (hdrain h).2, hflight⟩

/-- So it moves on when the port stands idle. -/
theorem State.attachingFit.moves_freed (hf : s.attachingFit) (hlog : t.log = s.log) (hhq : t.hq = s.hq)
    (hre : t.re = s.re) (hce : t.ce.contexts = s.ce.contexts) (hoc : t.oc = { s.oc with attach := t.oc.attach })
    (hattach : t.oc.attach ≠ none) (hres : t.lc.reservations = []) (hport : t.dp.port = none)
    (hsingle : t.lc.writes.length ≤ 1) (hwrites : ∀ w ∈ t.lc.writes, w.fits (.modeAtReset .attaching) = true)
    (hreading : t.lc.attachRead ≠ .none → t.lc.writes = [])
    (hdrain : t.drains = true → t.lc.writes = [] ∧ t.lc.attachRead = .none) : t.attachingFit := by
  refine hf.moves hlog hhq hre hce hoc hattach hres (fun a ha => ?_) ?_ hsingle hwrites hreading hdrain
  · rw [hport] at ha
    cases ha
  · unfold State.lcInFlight
    rw [hport]
    rfl

/-- While a read of the attach is in flight, nothing is queued, and the attach does not drain. -/
theorem State.attachingFit.reading_of (hf : s.attachingFit) {o : Owner} {r : MemReply} (he : s.endsWith o r)
    (hl : o.requester = .lc) (hn : o.isAnchor = false) : s.lc.writes = [] ∧ s.drains = false := by
  obtain ⟨hlc, hanchor⟩ := State.lcInFlight_of he
  rw [hl] at hlc
  rw [hn] at hanchor
  refine ⟨hf.reading (hf.asked hlc hanchor), Bool.eq_false_iff.mpr fun hd => ?_⟩
  exact Bool.noConfusion ((hf.draining hd).2.2.symm.trans hlc)

/-- While an anchor of the attach is in flight, nothing else is asked, and the attach does not drain. -/
theorem State.attachingFit.anchoring_of (hf : s.attachingFit) {job : AnchorJob} {r : MemReply}
    (he : s.endsWith (.lcAnchor job) r) : s.lc.writes = [] ∧ s.lc.attachRead = .none ∧ s.drains = false := by
  obtain ⟨hlc, hanchor⟩ := State.lcInFlight_of he
  obtain ⟨hw, hr⟩ := hf.anchoring hanchor
  refine ⟨hw, hr, Bool.eq_false_iff.mpr fun hd => ?_⟩
  exact Bool.noConfusion ((hf.draining hd).2.2.symm.trans hlc)

/-- A step that ends in ATTACHING. -/
theorem OuterStep.attaching (hf : t.attachingFit) (hr : s.ringBounded → t.lc.durable ≤ t.lc.live ∧ t.lc.live ≤ t.log.slots)
    (hcf : t.cf = s.cf) : OuterStep s t := by
  refine .stays hf.orderly (Controller.active_eq_false.mpr (.inr (.inl hf.mode))) (fun h => ?_) fun h => hcf.trans h
  refine State.ringFits.bounded (hr h) ?_ ?_
  · rw [hf.stage]; exact nofun
  · rw [hf.mode]; exact nofun

theorem State.ringBounded_empty (hst : t.re.stage = .idle) (hm : t.oc.mode ≠ .recovering)
    (hl : t.lc.live = 0) (hd : t.lc.durable = 0) : t.ringBounded := by
  refine State.ringFits.bounded ⟨?_, ?_⟩ (by rw [hst]; exact nofun) hm
  · rw [hl, hd]
  · rw [hl]; exact Nat.zero_le _

/-- An attach that fails ends OFFLINE (R138). -/
theorem OuterStep.attachFails (hr : t.atRest) (hst : t.re.stage = .idle) (hp : t.dp.port = none) (hcf : t.cf = s.cf)
    (c : Condition) : OuterStep s (t.attachFails c) := by
  have hfit : (t.attachFails c).offlineFit := by
    refine ⟨⟨hr.op, hr.phase, hr.stack, hr.successor, hr.fence, rfl, hr.contexts⟩, ⟨hst, rfl, rfl, fun a ha => ?_⟩,
      rfl, rfl⟩
    rw [show (t.attachFails c).dp.port = none from hp] at ha
    cases ha
  exact .stays hfit.orderly rfl (fun _ => State.ringBounded_empty hst nofun rfl rfl) fun h => hcf.trans h

/-- A failed read or anchor fails the attach. -/
theorem OuterStep.attachFails_freed (hf : s.attachingFit) (c : Condition) :
    OuterStep s (s.portFreed.attachFails c) :=
  .attachFails (s := s) (t := s.portFreed) (hf.toatRest.congr rfl hf.reservations rfl) hf.stage rfl rfl c

/-- The second copy is read (R139, R141). -/
theorem OuterStep.anchorsRead (hf : s.attachingFit) (hw : s.lc.writes = []) (hd : s.drains = false)
    (a b : Option Anchor) (copy : AnchorCopy) :
    OuterStep s (({ s.portFreed with lc := { s.lc with copyB := copy, attachRead := .none } } : State).anchorsRead a b) := by
  let u : State := { s.portFreed with lc := { s.lc with copyB := copy, attachRead := .none } }
  obtain ⟨at_, ha⟩ := Option.ne_none_iff_exists'.mp hf.attach
  have hmoves (v : State) := State.attachingFit.moves_freed (t := v) hf
  cases hk : at_.arg with
  | keep =>
    obtain ⟨hnone, hsome⟩ := State.anchorsRead_keep (s := u) ha hk a b
    cases hsel : selectAnchor a b with
    | none =>
      rw [hnone hsel]
      exact .attachFails (s := s) (t := u) (hf.toatRest.congr rfl hf.reservations rfl) hf.stage rfl rfl _
    | some x =>
      rw [hsome x hsel]
      refine .attaching (hmoves _ rfl rfl rfl rfl rfl hf.attach hf.reservations rfl ?_ ?_ ?_ ?_)
        (fun _ => ⟨Nat.le_refl _, Nat.zero_le _⟩) rfl
      · exact (congrArg List.length hw).trans_le (Nat.zero_le 1)
      · exact hf.writes
      · exact fun _ => hw
      · exact fun hdr => Bool.noConfusion (hd.symm.trans hdr)
  | format =>
    rw [State.anchorsRead_format (s := u) ha hk]
    refine .attaching (hmoves _ rfl rfl rfl rfl rfl nofun hf.reservations rfl ?_ ?_ ?_ ?_)
      (fun _ => ⟨Nat.le_refl _, Nat.zero_le _⟩) rfl
    · have hlen : (s.lc.writes ++ [LogWrite.anchor (.formatA (formatSession (selectAnchor a b)))]).length ≤ 1 := by
        rw [hw]
        exact Nat.le_refl 1
      exact hlen
    · intro w hmem
      rcases List.mem_append.mp hmem with hmem | hmem
      · exact hf.writes w hmem
      · rw [List.mem_singleton.mp hmem]
        rfl
    · exact fun hne => absurd rfl hne
    · exact nofun

/-- A read of the attach ends (R138 to R141). -/
theorem OuterStep.anchorRead {r : MemReply} (hf : s.attachingFit) (h : s.anchorRead r = some t) : OuterStep s t := by
  obtain ⟨o, f, -, -, -, rfl⟩ | ⟨d, -, he, rfl⟩ | ⟨a, d, -, he, rfl⟩ := State.anchorRead_cases h
  · exact .attachFails_freed hf _
  · obtain ⟨hw, hd⟩ := hf.reading_of he rfl rfl
    refine .attaching (State.attachingFit.moves_freed hf rfl rfl rfl rfl rfl hf.attach hf.reservations rfl ?_ ?_ ?_ ?_)
      (fun hr => ⟨hr.1, hr.2.1⟩) rfl
    · exact hf.single
    · exact hf.writes
    · exact fun _ => hw
    · exact fun hdr => Bool.noConfusion (hd.symm.trans hdr)
  · obtain ⟨hw, hd⟩ := hf.reading_of he rfl rfl
    exact .anchorsRead hf hw hd _ _ _

/-- The tail test (R140). -/
theorem OuterStep.tailTest (hf : s.attachingFit) (hw : s.lc.writes = []) (header payload : BlockData) :
    OuterStep s (s.portFreed.tailTest header payload) := by
  obtain ⟨at_, ha⟩ := Option.ne_none_iff_exists'.mp hf.attach
  cases htest : ringTest s.lc s.log.slots s.lc.tail header payload with
  | passes k =>
    rw [State.tailTest_passes (s := s.portFreed) htest]
    have hfit : ({ s.portFreed with
        lc := { s.lc with attachRead := .none }, oc := { s.oc with mode := .suspect, attach := none }
        eq := s.eq.push { kind := .attached, level := 0, condition := .none, serial := s.lc.session,
                          argument := 1 } } : State).suspectFit :=
      ⟨⟨hf.op, hf.phase, hf.stack, hf.successor, hf.fence, hf.reservations, hf.contexts⟩,
        ⟨hf.stage, hw, rfl, fun a ha => (Option.not_mem_none a ha).elim⟩, ⟨hf.slots, hf.heldLog⟩, rfl, rfl⟩
    refine .stays hfit.orderly rfl (fun hr => State.ringFits.bounded ⟨hr.1, hr.2.1⟩ ?_ nofun) id
    rw [hfit.stage]
    exact nofun
  | fails c =>
    rw [State.tailTest_fails (s := s.portFreed) ha htest]
    refine .attaching (State.attachingFit.moves_freed hf rfl rfl rfl rfl rfl nofun hf.reservations rfl ?_ ?_ ?_ ?_)
      (fun hr => ⟨hr.1, hr.2.1⟩) rfl
    · have hlen : (s.lc.writes ++ [LogWrite.anchor .attachKeep]).length ≤ 1 := by
        rw [hw]
        exact Nat.le_refl 1
      exact hlen
    · intro w hmem
      rcases List.mem_append.mp hmem with hmem | hmem
      · exact hf.writes w hmem
      · rw [List.mem_singleton.mp hmem]
        rfl
    · exact fun hne => absurd rfl hne
    · exact nofun

theorem OuterStep.tailRead {r : MemReply} (hf : s.attachingFit) (h : s.tailRead r = some t) : OuterStep s t := by
  obtain ⟨o, ho, he, hcase⟩ := State.tailRead_cases h
  have hread : o.requester = .lc ∧ o.isAnchor = false := by
    rcases ho with rfl | ⟨d, rfl⟩ <;> exact ⟨rfl, rfl⟩
  obtain ⟨hw, hd⟩ := hf.reading_of he hread.1 hread.2
  obtain ⟨f, -, rfl⟩ | ⟨d, rfl⟩ | ⟨d, p, rfl⟩ := hcase
  · exact .attachFails_freed hf _
  · refine .attaching (State.attachingFit.moves_freed hf rfl rfl rfl rfl rfl hf.attach hf.reservations rfl ?_ ?_ ?_ ?_)
      (fun hr => ⟨hr.1, hr.2.1⟩) rfl
    · exact hf.single
    · exact hf.writes
    · exact fun _ => hw
    · exact fun hdr => Bool.noConfusion (hd.symm.trans hdr)
  · exact .tailTest hf hw d p

/-- The hold queue is drained, and the reads begin (R111, R137). -/
theorem OuterStep.drainEnds (hf : s.attachingFit) (h : s.drainEnds = some t) : OuterStep s t := by
  obtain ⟨a, ha, -, hp, -, rfl⟩ := State.drainEnds_cases h
  obtain ⟨hw, hr, hflight⟩ := hf.draining (by simp [ha, hp])
  rw [State.setAttachPhase_of ha]
  refine .attaching (State.attachingFit.moves hf rfl rfl rfl rfl rfl nofun hf.reservations ?_ hflight ?_ ?_ ?_ ?_)
    (fun hr => ⟨hr.1, hr.2.1⟩) rfl
  · exact hf.port
  · exact hf.single
  · exact hf.writes
  · exact fun _ => hw
  · exact nofun

/-- An anchor of the attach completes (R140, R141). -/
theorem OuterStep.attachAnchored (hf : s.attachingFit) {job : AnchorJob} (he : s.endsWith (.lcAnchor job) (.okay 0))
    (ho : job.occasion.fits (.modeAtReset .attaching) = true) :
    OuterStep s ((s.portFreed.anchored job).anchorDone job.occasion) := by
  obtain ⟨hw, hr, hd⟩ := hf.anchoring_of he
  obtain ⟨hwrites, hread, -, hres⟩ := EpochStep.anchored_lc s.portFreed job
  have hring := EpochStep.anchored_ring s.portFreed job
  have honline (n : Word32) : OuterStep s ((s.portFreed.anchored job).attached .online n) := by
    refine .begins_fresh ⟨rfl, rfl, ?_, hf.op, hf.phase, hf.stack, hf.successor, ⟨hf.slots, hf.heldLog⟩, hf.stage,
      hwrites.trans hw, hread.trans hr, hres.trans hf.reservations, rfl⟩ (fun _ => hring) id
    exact ⟨fun _ => nofun, fun _ => hf.fence⟩
  cases hocc : job.occasion
  case attachKeep | formatB => exact honline _
  case formatA w =>
    refine .attaching (State.attachingFit.moves_freed hf rfl rfl rfl rfl rfl hf.attach (hres.trans hf.reservations) rfl
      ?_ ?_ ?_ ?_) (fun _ => hring) rfl
    · have hlen : ((s.portFreed.anchored job).lc.writes ++ [LogWrite.anchor .formatB]).length ≤ 1 := by
        rw [hwrites, show s.portFreed.lc.writes = [] from hw]
        exact Nat.le_refl 1
      exact hlen
    · intro w hmem
      rcases List.mem_append.mp hmem with hmem | hmem
      · exact hf.writes w (hwrites ▸ hmem)
      · rw [List.mem_singleton.mp hmem]
        rfl
    · exact fun hne => absurd (hread.trans hr) hne
    · exact fun hdr => Bool.noConfusion (hd.symm.trans hdr)
  all_goals
    rw [hocc] at ho
    cases ho

end

end Sys2Proof.Machine

/-! SUPPORT. The steps of RECOVERING. -/

namespace Sys2Proof.Machine

section
variable {s t u : State}

/-- A recovery with no request in flight, before its anchor. -/
structure State.recoveryFree (s : State) : Prop extends s.atRest, s.logReady where
  mode : s.oc.mode = .recovering
  attach : s.oc.attach = none
  purpose : s.re.purpose = .recovery
  writes : s.lc.writes = []
  attachRead : s.lc.attachRead = .none
  port : s.dp.port = none

theorem State.recoveryFree.congr (h : s.recoveryFree) (hlog : t.log = s.log) (hhq : t.hq = s.hq) (hce : t.ce = s.ce)
    (hoc : t.oc = s.oc) (hres : t.lc.reservations = []) (hw : t.lc.writes = []) (hread : t.lc.attachRead = .none)
    (hp : t.re.purpose = .recovery) (hport : t.dp.port = none) : t.recoveryFree := by
  refine ⟨h.toatRest.congr hoc hres hce, ⟨?_, ?_⟩, ?_, ?_, hp, hw, hread, hport⟩
  · rw [hlog]; exact h.slots
  · rw [hhq]; exact h.heldLog
  · rw [hoc]; exact h.mode
  · rw [hoc]; exact h.attach

theorem State.recoveryFree.fit (h : s.recoveryFree) (hst : s.re.stage ≠ .idle ∧ s.re.stage ≠ .settling) :
    s.recoveringFit := by
  have hflight : s.lcInFlight = false := by
    unfold State.lcInFlight
    rw [h.port]
    rfl
  refine ⟨h.toatRest, h.tologReady, h.mode, h.attach, h.purpose, hst, fun w hw => ?_, fun a ha => ?_, h.attachRead, ?_,
    fun _ => ⟨h.writes, hflight⟩, fun _ => h.writes⟩
  · rw [h.writes] at hw
    cases hw
  · rw [h.port] at ha
    cases ha
  · rw [h.writes]
    exact Nat.zero_le 1

theorem State.recoveringFit.free (h : s.recoveringFit) (hst : s.re.stage ≠ .anchoring) : s.portFreed.recoveryFree :=
  ⟨h.toatRest.congr rfl h.reservations rfl, ⟨h.slots, h.heldLog⟩, h.mode, h.attach, h.purpose, (h.early hst).1,
    h.attachRead, rfl⟩

/-- Whatever the restore engine does next. -/
theorem State.recoveringFit.free_re (h : s.recoveringFit) (hst : s.re.stage ≠ .anchoring) {re : RestoreEngine}
    (hp : re.purpose = .recovery) : ({ s.portFreed with re := re } : State).recoveryFree :=
  (h.free hst).congr rfl rfl rfl rfl h.reservations (h.early hst).1 h.attachRead hp rfl

/-- A step that ends in RECOVERING. -/
theorem OuterStep.recovering (hf : t.recoveringFit) (hcf : t.cf = s.cf)
    (hr : s.ringBounded → t.ringFits
      ∧ (t.re.stage = .scanning ∨ t.re.stage = .halted ∧ t.re.resumeScanning = true → t.re.scanned < t.log.slots)
      ∧ (t.re.stage = .replaying → t.re.resumeScanning = false)) : OuterStep s t := by
  refine .stays hf.orderly (Controller.active_eq_false.mpr (.inr (.inr (.inr hf.mode)))) (fun h => ?_) fun h => hcf.trans h
  obtain ⟨hring, hscan, hreplay⟩ := hr h
  exact ⟨hring.1, hring.2, fun hs => hscan (hs.imp id fun ⟨_, h1, h2⟩ => ⟨h1, h2⟩), fun _ => hreplay⟩

/-- The recovery halts (R147, R148). -/
theorem OuterStep.haltRecovery (hu : u.recoveryFree) (hcf : u.cf = s.cf)
    (hr : s.ringBounded → u.ringFits ∧ (u.re.resumeScanning = true → u.re.scanned < u.log.slots)) (c : Condition)
    (n : Nat) : OuterStep s (u.haltRecovery c n) := by
  have hfree : (u.haltRecovery c n).recoveryFree :=
    hu.congr rfl rfl rfl rfl hu.reservations hu.writes hu.attachRead hu.purpose hu.port
  refine .recovering (hfree.fit ⟨nofun, nofun⟩) hcf fun h => ⟨(hr h).1, fun hs => (hr h).2 ?_, nofun⟩
  rcases hs with hs | ⟨-, hs⟩
  · cases hs
  · exact hs

/-- A slot of the recovery halts it on its own failure. -/
theorem OuterStep.haltRecoverySlot (hf : s.recoveringFit) (hst : s.re.stage = .scanning ∨ s.re.stage = .replaying)
    (c : Condition) : OuterStep s (s.portFreed.haltRecoverySlot c) := by
  have hne : s.re.stage ≠ .anchoring := by rcases hst with hst | hst <;> rw [hst] <;> decide
  refine .haltRecovery (s := s) (u := { s.portFreed with re := { s.re with abortRequested := false } })
    (hf.free_re hne hf.purpose) rfl (fun h => ?_) c _
  obtain ⟨h1, h2, hscan, hreplay⟩ := h
  refine ⟨⟨h1, h2⟩, fun hres => ?_⟩
  rcases hst with hst | hst
  · exact hscan (.inl hst)
  · exact Bool.noConfusion ((hreplay hf.mode hst).symm.trans hres)

/-- The final anchor is asked for (R146). -/
theorem OuterStep.recoveryAnchors (hu : u.recoveryFree) (hcf : u.cf = s.cf) (hr : s.ringBounded → u.ringFits) :
    OuterStep s u.recoveryAnchors := by
  have hw : u.recoveryAnchors.lc.writes = [.anchor .recovery] := by
    have : u.recoveryAnchors.lc.writes = u.lc.writes ++ [.anchor .recovery] := rfl
    rw [this, hu.writes]
    rfl
  have hflight : u.recoveryAnchors.lcInFlight = false := by
    unfold State.lcInFlight
    rw [show u.recoveryAnchors.dp.port = none from hu.port]
    rfl
  refine .recovering ⟨hu.toatRest.congr rfl hu.reservations rfl, ⟨hu.slots, hu.heldLog⟩, hu.mode, hu.attach, hu.purpose,
    ⟨nofun, nofun⟩, fun w hmem => ?_, fun a ha => ?_, hu.attachRead, ?_, fun hst => absurd rfl hst,
    fun h => Bool.noConfusion (hflight.symm.trans h)⟩ hcf fun h => ⟨hr h, fun hs => ?_, nofun⟩
  · rw [hw] at hmem
    rw [List.mem_singleton.mp hmem]
    rfl
  · rw [show u.recoveryAnchors.dp.port = none from hu.port] at ha
    cases ha
  · rw [hw]
    exact Nat.le_refl 1
  · rcases hs with hs | ⟨hs, -⟩ <;> cases hs

/-- The scan ends with head′ where it found it (R144). -/
theorem OuterStep.scanEnds (hu : u.recoveryFree) (hcf : u.cf = s.cf) (head : Nat)
    (hr : s.ringBounded → u.re.scanned ≤ u.log.slots) : OuterStep s (u.scanEnds head) := by
  have hfree (re : RestoreEngine) (hp : re.purpose = .recovery) (n : Word32) : ({ u with
      lc := { u.lc with head, live := u.re.scanned, durable := u.re.scanned, nextSequence := n }
      re := re } : State).recoveryFree :=
    hu.congr rfl rfl rfl rfl hu.reservations hu.writes hu.attachRead hp hu.port
  unfold State.scanEnds
  simp only
  split
  · exact .recoveryAnchors (hfree u.re hu.purpose _) hcf fun h => ⟨Nat.le_refl _, hr h⟩
  · split
    · refine .haltRecovery (s := s) (hfree _ (by exact hu.purpose) _) hcf (fun h => ⟨⟨Nat.le_refl _, hr h⟩, fun h => ?_⟩) _ _
      cases h
    · refine .recovering ((hfree _ (by exact hu.purpose) _).fit ⟨nofun, nofun⟩) hcf fun h =>
        ⟨⟨Nat.le_refl _, hr h⟩, fun hs => ?_, fun _ => rfl⟩
      rcases hs with hs | ⟨hs, -⟩ <;> cases hs

/-- A slot passes the scan (R143). -/
theorem OuterStep.scanPasses (hf : s.recoveringFit) (hst : s.re.stage = .scanning) (k : RecordKind) (serial : Word32) :
    OuterStep s (s.portFreed.scanPasses k serial) := by
  have hne : s.re.stage ≠ .anchoring := by rw [hst]; decide
  unfold State.scanPasses
  simp only
  split
  · refine .scanEnds (s := s) ?_ (by rfl) _ fun h => ?_
    · exact hf.free_re hne hf.purpose
    · exact h.2.2.1 (.inl hst)
  · rename_i hlt
    have hmore (h : s.ringBounded) : s.portFreed.ringFits ∧ s.re.scanned + 1 < s.log.slots :=
      ⟨⟨h.1, h.2.1⟩, Nat.lt_of_not_le hlt⟩
    split
    · refine .haltRecovery (s := s) ?_ (by rfl) ?_ _ _
      · exact hf.free_re hne hf.purpose
      · exact fun h => ⟨(hmore h).1, fun _ => (hmore h).2⟩
    · refine .recovering ?_ rfl fun h => ⟨(hmore h).1, fun _ => (hmore h).2, fun hs => ?_⟩
      · exact State.recoveryFree.fit (hf.free_re hne hf.purpose) hf.running
      · exact Stage.noConfusion (hst.symm.trans hs)

theorem OuterStep.scanRead {r : MemReply} (hf : s.recoveringFit) (h : s.scanRead r = some t) : OuterStep s t := by
  obtain ⟨hst, -, ⟨d, rfl⟩ | ⟨d, p, rfl⟩ | ⟨c, rfl⟩⟩ := State.scanRead_cases h
  · have hne : s.re.stage ≠ .anchoring := by rw [hst]; decide
    refine .recovering ?_ rfl fun h => ⟨⟨h.1, h.2.1⟩, fun _ => h.2.2.1 (.inl hst), fun hs => ?_⟩
    · exact State.recoveryFree.fit (hf.free_re hne hf.purpose) hf.running
    · exact Stage.noConfusion (hst.symm.trans hs)
  · unfold State.scanRecord
    split
    · exact .scanPasses hf hst _ _
    · exact .scanEnds (s := s) (hf.free (by rw [hst]; decide)) rfl _ fun h => Nat.le_of_lt (h.2.2.1 (.inl hst))
  · exact .haltRecoverySlot hf (.inl hst) c

/-- A slot of the replay is done (R145, R148). -/
theorem OuterStep.recoverySlotDone (hf : s.recoveringFit) (hst : s.re.stage = .replaying) (n : Word32) :
    OuterStep s ({ s.portFreed with re := { s.re with restored := n } } : State).recoverySlotDone := by
  have hne : s.re.stage ≠ .anchoring := by rw [hst]; decide
  unfold State.recoverySlotDone
  simp only
  split
  · refine .recoveryAnchors (s := s) ?_ rfl fun h => ⟨h.1, h.2.1⟩
    exact hf.free_re hne hf.purpose
  · split
    · refine .haltRecovery (s := s) ?_ (by rfl) ?_ _ _
      · exact hf.free_re hne hf.purpose
      · refine fun h => ⟨⟨h.1, h.2.1⟩, fun hres => ?_⟩
        exact Bool.noConfusion ((h.2.2.2 hf.mode hst).symm.trans hres)
    · refine .recovering ?_ rfl fun h => ⟨⟨h.1, h.2.1⟩, fun hs => ?_, fun _ => h.2.2.2 hf.mode hst⟩
      · exact State.recoveryFree.fit (hf.free_re hne hf.purpose) hf.running
      · rcases hs with hs | ⟨hs, -⟩ <;> exact Stage.noConfusion (hst.symm.trans hs)

/-- The handling of the slot in hand changes alone. -/
theorem OuterStep.recoveryHandling (hf : s.recoveringFit) (hst : s.re.stage = .replaying) (h : Handling) :
    OuterStep s { s.portFreed with re := { s.re with handling := h } } := by
  have hne : s.re.stage ≠ .anchoring := by rw [hst]; decide
  refine .recovering ?_ rfl fun h => ⟨⟨h.1, h.2.1⟩, fun hs => ?_, fun _ => h.2.2.2 hf.mode hst⟩
  · exact State.recoveryFree.fit (hf.free_re hne hf.purpose) hf.running
  · rcases hs with hs | ⟨hs, -⟩ <;> exact Stage.noConfusion (hst.symm.trans hs)

theorem OuterStep.recoveryRead {r : MemReply} (hf : s.recoveringFit) (h : s.recoveryRead r = some t) : OuterStep s t := by
  obtain ⟨hst, -, -, ⟨d, rfl⟩ | ⟨d, p, rfl⟩ | ⟨c, rfl⟩⟩ := State.recoveryRead_cases h
  · exact .recoveryHandling hf hst _
  · unfold State.recoveryRecord
    split
    · exact .haltRecoverySlot hf (.inr hst) _
    · split
      · split
        · exact .recoveryHandling hf hst _
        · exact .haltRecoverySlot hf (.inr hst) _
      · exact .recoverySlotDone hf hst s.re.restored
      · exact .recoverySlotDone hf hst s.re.restored
  · exact .haltRecoverySlot hf (.inr hst) c

theorem OuterStep.recoveryRestoreEnds {r : MemReply} (hf : s.recoveringFit) (h : s.recoveryRestoreEnds r = some t) :
    OuterStep s t := by
  obtain ⟨hst, -, -, rfl | ⟨c, rfl⟩⟩ := State.recoveryRestoreEnds_cases h
  · exact .recoverySlotDone hf hst _
  · exact .haltRecoverySlot hf (.inr hst) c

/-! ## The end of a recovery, and its commands -/

theorem State.recoveringFit.anchoring_of (hf : s.recoveringFit) {job : AnchorJob} {r : MemReply}
    (he : s.endsWith (.lcAnchor job) r) : s.lc.writes = [] ∧ s.re.stage = .anchoring := by
  obtain ⟨hlc, -⟩ := State.lcInFlight_of he
  refine ⟨hf.anchoring hlc, ?_⟩
  by_contra hst
  exact Bool.noConfusion ((hf.early hst).2.symm.trans hlc)

/-- The final anchor completes (R146). -/
theorem OuterStep.recovered (hf : s.recoveringFit) {job : AnchorJob} (he : s.endsWith (.lcAnchor job) (.okay 0))
    (ho : job.occasion.fits (.modeAtReset .recovering) = true) :
    OuterStep s ((s.portFreed.anchored job).anchorDone job.occasion) := by
  obtain ⟨hw, -⟩ := hf.anchoring_of he
  obtain ⟨hwrites, hread, -, hres⟩ := EpochStep.anchored_lc s.portFreed job
  have hring := EpochStep.anchored_ring s.portFreed job
  cases hocc : job.occasion
  case recovery =>
    refine .begins_fresh ⟨rfl, hf.attach, ⟨fun _ => nofun, fun _ => hf.fence⟩, hf.op, hf.phase, hf.stack, hf.successor,
      ⟨hf.slots, hf.heldLog⟩, rfl, hwrites.trans hw, hread.trans hf.attachRead, hres.trans hf.reservations, rfl⟩
      (fun _ => hring) id
  all_goals
    rw [hocc] at ho
    cases ho

/-- The final anchor fails after an accepted DETACH: its copy alone is INVALID (R150). -/
theorem OuterStep.recoveryCopyFailed (hf : s.recoveringFit) {job : AnchorJob} {r : MemReply}
    (he : s.endsWith (.lcAnchor job) r) : OuterStep s (s.portFreed.copyFailed job.copy) := by
  obtain ⟨hw, hst⟩ := hf.anchoring_of he
  have hlc := State.copyFailed_lc (s := s.portFreed) job.copy
  have hfree : (s.portFreed.copyFailed job.copy).recoveryFree := by
    refine ⟨hf.toatRest.congr rfl ?_ rfl, ⟨hf.slots, hf.heldLog⟩, hf.mode, hf.attach, hf.purpose, ?_, ?_, rfl⟩ <;>
      rw [hlc]
    · rw [LogState.setCopy_reservations]; exact hf.reservations
    · rw [LogState.setCopy_writes]; exact hw
    · rw [LogState.setCopy_attachRead]; exact hf.attachRead
  refine .recovering (hfree.fit hf.running) rfl fun h => ⟨?_, fun hs => ?_, fun hs => ?_⟩
  · unfold State.ringFits
    rw [hlc, LogState.setCopy_durable, LogState.setCopy_live]
    exact ⟨h.1, h.2.1⟩
  · rcases hs with hs | ⟨hs, -⟩ <;> exact Stage.noConfusion (hst.symm.trans hs)
  · exact Stage.noConfusion (hst.symm.trans hs)

/-- The final anchor fails: the log is dead (R39). -/
theorem OuterStep.recoveryDeclareDead (hf : s.recoveringFit) (name : CopyName) (f : MemFailure) :
    OuterStep s ((s.portFreed.copyFailed name).declareDead f) := by
  let u := s.portFreed.copyFailed name
  obtain ⟨⟨hlc, -, hdp, hre, -, hlog, hcf, -, -⟩, ⟨hmode, hfence, hop, hphase, hsucc, -⟩, hhq⟩ := u.declareDead_leaves f
  have hulc : u.lc = s.lc.setCopy name { s.lc.copyState name with standing := .invalid } := rfl
  have hstack : (u.declareDead f).oc.stack = [] := by
    rw [(u.declareDead_stack f).1]
    have hphase : u.oc.phase = .none := hf.phase
    have hstack : u.oc.stack = [] := hf.stack
    simp [Controller.deathStack, hphase, hstack]
  refine .begins_fresh ⟨Controller.active_iff.mpr (.inr hmode), ?_, ?_, hop, hphase, hstack, hsucc, ⟨?_, ?_⟩, ?_, ?_, ?_,
    ?_, ?_⟩ (fun h => ?_) fun h => hcf.trans h
  · unfold State.declareDead State.enterFence State.fenceDiscard State.endForDeadLog
    simp only [State.dropLatch_oc, State.raise_oc, State.discardHeld_oc, State.stopTimer_oc, State.endOperation_oc,
      State.abandonEpochOp_oc]
    exact hf.attach
  · rw [hfence, hmode]; simp
  · rw [hlog]; exact hf.slots
  · intro e he
    rw [hhq] at he
    exact hf.heldLog e (List.mem_of_mem_filter he)
  · rw [hre]
  · rw [hlc]
  · rw [hlc]
    exact (congrArg LogState.attachRead hulc).trans ((LogState.setCopy_attachRead ..).trans hf.attachRead)
  · rw [hlc]
  · rw [hdp]; rfl
  · unfold State.ringFits
    rw [hlc, hlog]
    dsimp only
    rw [hulc, LogState.setCopy_durable, LogState.setCopy_live]
    exact ⟨h.1, h.2.1⟩

/-- RECOVER (R142). -/
theorem OuterStep.recover (hs : s.orderly) (h : s.recover.leaves t) : OuterStep s t := by
  obtain ⟨hm, rfl⟩ := State.recover_cases h
  have hf := State.suspectFit_of_mode hs hm
  have hport (a : ActiveRequest) (ha : a ∈ s.dp.port) : a.owner.requester = .masterPath := hf.port a ha
  refine .recovering ⟨⟨hf.op, hf.phase, hf.stack, hf.successor, hf.fence, hf.reservations, hf.contexts⟩,
    ⟨hf.slots, hf.heldLog⟩, rfl, hf.attach, rfl, ⟨nofun, nofun⟩, fun w hw => ?_, fun a ha => ?_, hf.attachRead, ?_,
    fun _ => ⟨hf.writes, hf.tounasked.lcInFlight⟩, fun _ => hf.writes⟩ rfl
    fun hr => ⟨⟨hr.1, hr.2.1⟩, fun _ => Nat.pos_of_ne_zero hf.slots, nofun⟩
  · rw [show _ = [] from hf.writes] at hw
    cases hw
  · exact Owner.fits_of_master _ (hport a ha)
  · exact (congrArg List.length hf.writes).trans_le (Nat.zero_le 1)

end

end Sys2Proof.Machine

/-! SUPPORT. Every command outside ONLINE and FENCED. -/

namespace Sys2Proof.Machine

section
variable {s t u : State}

theorem OuterStep.trans (h : OuterStep s t) (h' : OuterStep t u) : OuterStep s u :=
  ⟨h'.orderly, fun hr => h'.ring (h.ring hr), fun hc => h'.filter (h.filter hc), h'.begins⟩

/-- Beside a step that stays outside, of the core, the contexts and the filter nothing changes. -/
theorem OuterStep.and_same (h : OuterStep s t) (ha : t.oc.active = false) (hcore : u.core = t.core) (hce : u.ce = t.ce)
    (hcf : u.cf = t.cf) : OuterStep s u :=
  h.trans (.same h.orderly ha hcore hce hcf)

theorem Controller.mode_of_inactive {oc : Controller} (h : oc.active = false) : oc.mode ≠ .online ∧ oc.mode ≠ .fenced := by
  rw [← not_or]
  exact fun hm => Bool.noConfusion (h.symm.trans (Controller.active_iff.mpr hm))

/-! ## Faults, timer, options -/

theorem OuterStep.dropLatch (hs : s.orderly) (ha : s.oc.active = false) : OuterStep s s.dropLatch := by
  unfold State.dropLatch
  split
  · exact .same hs ha rfl rfl rfl
  · exact .same hs ha rfl rfl rfl

theorem OuterStep.assertFault (hs : s.orderly) (ha : s.oc.active = false) (h : s.assertFault = some t) :
    OuterStep s t := by
  obtain ⟨-, rfl | rfl⟩ := State.assertFault_cases h
  · exact .same hs ha rfl rfl rfl
  · have hop : s.oc.op = .idle := (State.atRest_of_orderly hs ha).op
    rw [State.takeAssertion_elsewhere]
    · exact .same hs ha rfl rfl rfl
    · exact fun h => OpState.noConfusion (hop.symm.trans h)
    · exact fun h => OpState.noConfusion (hop.symm.trans h)
    · exact (Controller.mode_of_inactive ha).1

theorem OuterStep.timerExpires (hs : s.orderly) (ha : s.oc.active = false) (h : s.timerExpires = some t) :
    OuterStep s t := by
  have hm := (Controller.mode_of_inactive ha).1
  obtain rfl | ⟨hr, -⟩ | ⟨ho, -⟩ := State.timerExpires_cases h
  · exact .same hs ha rfl rfl rfl
  · exact absurd (Controller.mayRotate_iff.mp hr).1 hm
  · exact absurd ho hm

/-! ## The master's requests -/

theorem OuterStep.removed (hs : s.orderly) (ha : s.oc.active = false) (n : Nat) :
    OuterStep s { s.portFreed with hq := s.hq.remove n } := by
  have hfreed := OuterStep.portFreed hs ha
  refine hfreed.trans (.still ha (State.orderly_entries hfreed.orderly rfl rfl fun _ e he hlog => ?_) rfl ⟨rfl, rfl⟩ rfl
    rfl rfl)
  exact ⟨e, List.filter_subset_self _ he, hlog, id⟩

theorem OuterStep.receive (hs : s.orderly) (ha : s.oc.active = false) {r : MemRequest} (h : s.receive r = some t) :
    OuterStep s t := by
  obtain ⟨-, rfl⟩ := State.receive_cases h
  have hreceived : OuterStep s { s with up := { s.up with
      state := .stalled .situation r, received := s.up.received + 1 } } := .same hs ha rfl rfl rfl
  exact hreceived.trans (.decideRequest hreceived.orderly ha r)

theorem OuterStep.readEnds (hs : s.orderly) (ha : s.oc.active = false) {r : MemReply} (h : s.readEnds r = some t) :
    OuterStep s t := by
  obtain ⟨-, rfl | ⟨p, -, rfl⟩⟩ := State.readEnds_cases h
  · exact .portFreed hs ha
  · exact (OuterStep.portFreed hs ha).and_same ha rfl rfl rfl

theorem OuterStep.writeEnds (hs : s.orderly) (ha : s.oc.active = false) (h : s.writeEnds = some t) : OuterStep s t := by
  obtain ⟨n, -, rfl | rfl | rfl⟩ := State.writeEnds_cases h
  · exact .portFreed hs ha
  · exact .removed hs ha n
  · exact (OuterStep.removed hs ha n).and_same ha rfl rfl rfl

theorem OuterStep.writeFails (hs : s.orderly) (ha : s.oc.active = false) {f : MemFailure} (h : s.writeFails f = some t) :
    OuterStep s t := by
  obtain ⟨n, -, rfl | ⟨e, rfl⟩ | rfl⟩ := State.writeFails_cases h
  · exact .portFreed hs ha
  · exact (OuterStep.removed hs ha n).and_same ha rfl rfl rfl
  · exact (OuterStep.removed hs ha n).and_same ha rfl rfl rfl

/-! ## Grants -/

/-- The attach's write goes to the port. -/
theorem OuterStep.grantAttachWrite (hf : s.attachingFit) {w : LogWrite} {rest : List LogWrite}
    (hw : s.lc.writes = w :: rest) (n : Nat) (q : MemRequest) :
    OuterStep s (({ s with dp := { s.dp with fairness := n }, lc := { s.lc with writes := rest } } : State).present
      (w.owner s) q) := by
  have hrest : rest = [] := by
    have := hf.single
    rw [hw] at this
    exact List.eq_nil_of_length_eq_zero (by simpa using this)
  subst hrest
  have hread : s.lc.attachRead = .none := by
    by_contra hne
    exact List.cons_ne_nil _ _ (hw.symm.trans (hf.reading hne))
  have hd : s.drains = false := Bool.eq_false_iff.mpr fun hd => List.cons_ne_nil _ _ (hw.symm.trans (hf.draining hd).1)
  have hfit : w.fits (.modeAtReset .attaching) = true := hf.writes w (by rw [hw]; exact List.mem_cons_self ..)
  have howner : (w.owner s).isAnchor = true ∧ (w.owner s).fits (.modeAtReset .attaching) = true := by
    cases w
    case anchor o => exact ⟨rfl, hfit⟩
    all_goals cases hfit
  refine .attaching ⟨hf.toatRest.congr rfl hf.reservations rfl, ⟨hf.slots, hf.heldLog⟩, hf.mode, hf.attach, hf.stage,
    fun x hx => (List.not_mem_nil hx).elim, fun a ha => ?_, Nat.zero_le 1, fun _ => rfl, fun _ => ⟨rfl, hread⟩,
    fun _ hno => ?_, fun hdr => Bool.noConfusion (hd.symm.trans hdr)⟩ (fun h => ⟨h.1, h.2.1⟩) rfl
  · obtain rfl := Option.some.inj ha
    exact howner.2
  · have hanchor : (w.owner s).isAnchor = false := hno
    exact Bool.noConfusion (hanchor.symm.trans howner.1)

/-- The attach's read goes to the port. -/
theorem OuterStep.grantAttachRead (hf : s.attachingFit) {o : Owner}
    (ho : s.lc.attachRead.owner = some o) (n : Nat) (q : MemRequest) :
    OuterStep s (({ s with dp := { s.dp with fairness := n } } : State).present o q) := by
  have hread : s.lc.attachRead ≠ .none := fun h => by rw [h] at ho; cases ho
  have hd : s.drains = false := Bool.eq_false_iff.mpr fun hd => hread (hf.draining hd).2.1
  have howner : o.isAnchor = false ∧ o.fits (.modeAtReset .attaching) = true := by
    cases hr : s.lc.attachRead <;> rw [hr] at ho <;> cases ho <;> exact ⟨rfl, rfl⟩
  refine .attaching ⟨hf.toatRest.congr rfl hf.reservations rfl, ⟨hf.slots, hf.heldLog⟩, hf.mode, hf.attach, hf.stage,
    hf.writes, fun a ha => ?_, hf.single, hf.reading, fun hanchor => ?_, fun _ _ => hread,
    fun hdr => Bool.noConfusion (hd.symm.trans hdr)⟩ (fun h => ⟨h.1, h.2.1⟩) rfl
  · obtain rfl := Option.some.inj ha
    exact howner.2
  · have : o.isAnchor = true := hanchor
    exact Bool.noConfusion (howner.1.symm.trans this)

/-- The recovery's anchor goes to the port. -/
theorem OuterStep.grantRecoveryWrite (hf : s.recoveringFit) {w : LogWrite} {rest : List LogWrite}
    (hw : s.lc.writes = w :: rest) (n : Nat) (q : MemRequest) :
    OuterStep s (({ s with dp := { s.dp with fairness := n }, lc := { s.lc with writes := rest } } : State).present
      (w.owner s) q) := by
  have hrest : rest = [] := by
    have := hf.single
    rw [hw] at this
    exact List.eq_nil_of_length_eq_zero (by simpa using this)
  subst hrest
  have hst : s.re.stage = .anchoring := by
    by_contra hne
    exact List.cons_ne_nil _ _ (hw.symm.trans (hf.early hne).1)
  have hfit : w.fits (.modeAtReset .recovering) = true := hf.writes w (by rw [hw]; exact List.mem_cons_self ..)
  have howner : (w.owner s).fits (.modeAtReset .recovering) = true := by
    cases w
    case anchor o => exact hfit
    all_goals cases hfit
  refine .recovering ⟨hf.toatRest.congr rfl hf.reservations rfl, ⟨hf.slots, hf.heldLog⟩, hf.mode, hf.attach, hf.purpose,
    hf.running, fun x hx => (List.not_mem_nil hx).elim, fun a ha => ?_, hf.attachRead, Nat.zero_le 1,
    fun hne => absurd hst hne, fun _ => rfl⟩ rfl fun h => ⟨⟨h.1, h.2.1⟩, fun hs => ?_, fun hs => ?_⟩
  · obtain rfl := Option.some.inj ha
    exact howner
  · rcases hs with hs | ⟨hs, -⟩ <;> exact Stage.noConfusion (hst.symm.trans hs)
  · exact Stage.noConfusion (hst.symm.trans hs)

/-- A request of the recovery's scan or replay goes to the port. -/
theorem OuterStep.grantRecovery (hf : s.recoveringFit) (hst : s.re.stage ≠ .anchoring) (n : Nat) (q : MemRequest) :
    OuterStep s (({ s with dp := { s.dp with fairness := n } } : State).present .re q) := by
  obtain ⟨hw, -⟩ := hf.early hst
  refine .recovering ⟨hf.toatRest.congr rfl hf.reservations rfl, ⟨hf.slots, hf.heldLog⟩, hf.mode, hf.attach, hf.purpose,
    hf.running, hf.writes, fun a ha => ?_, hf.attachRead, hf.single, fun _ => ⟨hw, rfl⟩, fun _ => hw⟩ rfl
    fun h => ⟨⟨h.1, h.2.1⟩, fun hs => ?_, fun hs => h.2.2.2 hf.mode hs⟩
  · obtain rfl := Option.some.inj ha
    rfl
  · exact h.2.2.1 (hs.imp id fun ⟨h1, h2⟩ => ⟨hf.mode, h1, h2⟩)

/-- A request of the master goes to the port. -/
theorem OuterStep.grantMaster (hu : u.orderly) (hau : u.oc.active = false) (hlc : u.lc = s.lc) (hlog : u.log = s.log)
    (hre : u.re = s.re) (hm : u.oc.mode = s.oc.mode) (hcf : u.cf = s.cf) (o : Owner) (q : MemRequest)
    (ho : o.requester = .masterPath) : OuterStep s (u.present o q) := by
  have ha : s.oc.active = false := (Controller.active_congr hm).symm.trans hau
  refine .still ha (State.orderly_present_master hu o q ho) hm ?_ hlog hre hcf
  have h : (u.present o q).lc = s.lc := hlc
  rw [h]
  exact ⟨rfl, rfl⟩

theorem OuterStep.grant (hs : s.orderly) (ha : s.oc.active = false) {first : Requester} (h : s.grant first = some t) :
    OuterStep s t := by
  have hfair (n : Nat) : ({ s with dp := { s.dp with fairness := n } } : State).orderly :=
    State.orderly_congr hs rfl id
  obtain ⟨-, n, ⟨w, rest, q, -, hw, rfl⟩ | ⟨o, q, -, -, hr, rfl⟩ | ⟨q, hst, rfl⟩ | ⟨i, part, q, hst, rfl⟩ | ⟨e, q, rfl⟩ |
    ⟨q, rfl⟩⟩ := State.grant_cases h
  · rcases State.orderly_cases hs with hf | hf | hf | hf | hf
    · exact (List.cons_ne_nil _ _ (hw.symm.trans hf.writes)).elim
    · exact .grantAttachWrite hf hw n q
    · exact (List.cons_ne_nil _ _ (hw.symm.trans hf.writes)).elim
    · exact .grantRecoveryWrite hf hw n q
    · exact Bool.noConfusion (ha.symm.trans hf.active)
  · have hm : s.oc.mode = .attaching := hs.2.2.2.2.1 fun hn => by rw [hn] at hr; cases hr
    exact .grantAttachRead (State.attachingFit_of_mode hs hm) hr n q
  · have hstage : s.re.stage = .replaying ∨ s.re.stage = .scanning := by
      simp only [State.stands, Bool.and_eq_true, Bool.or_eq_true, decide_eq_true_eq] at hst
      exact hst.1
    have hne : s.re.stage ≠ .idle ∧ s.re.stage ≠ .anchoring := by
      rcases hstage with h | h <;> rw [h] <;> decide
    exact .grantRecovery (State.recoveringFit_of_stage hs ha hne.1) hne.2 n q
  · have hctx := (State.atRest_of_orderly hs ha).contexts
    simp only [State.stands, Bool.and_eq_true, List.any_eq_true] at hst
    obtain ⟨⟨c, hc, hr⟩, -⟩ := hst
    rw [hctx c hc] at hr
    cases hr
  · refine .grantMaster (s := s) (u := { s with dp := { s.dp with fairness := n }, hq := s.hq.issue e }) ?_ ha rfl rfl rfl rfl rfl
      (.masterWrite e) q rfl
    refine State.orderly_entries (hfair n) rfl rfl fun _ x hx hlog => ?_
    obtain ⟨y, hy, rfl⟩ := List.mem_map.mp hx
    refine ⟨y, hy, ?_⟩
    split at hlog
    · exact ⟨hlog, fun _ => by simp [*]⟩
    · exact ⟨hlog, fun hi => by simp [*]⟩
  · exact .grantMaster (s := s) (hfair n) ha rfl rfl rfl rfl rfl .masterRead q rfl

theorem OuterStep.reissue (hs : s.orderly) (ha : s.oc.active = false) {f : MemFailure} (h : s.reissue f = some t) :
    OuterStep s t := by
  obtain ⟨a, hp, rfl⟩ := State.reissue_cases h
  obtain ⟨hmode, hstage, hwrites, hport, hread, hatt, hrec⟩ := hs
  have hflight (b : ActiveRequest) (hb : b.owner = a.owner) :
      ({ s with dp := { s.dp with port := some b } } : State).lcInFlight = s.lcInFlight
        ∧ ({ s with dp := { s.dp with port := some b } } : State).anchorInFlight = s.anchorInFlight := by
    unfold State.lcInFlight State.anchorInFlight
    rw [hp]
    simp [hb]
  obtain ⟨hlc, hanchor⟩ := hflight { a with failures := a.failures + 1, last := some f } rfl
  refine .still ha ⟨hmode, hstage, hwrites, State.portAll_iff.mpr fun b hb => ?_, hread, fun hm => ?_, fun hm => ?_⟩ rfl
    ⟨rfl, rfl⟩ rfl rfl rfl
  · obtain rfl := Option.some.inj hb
    exact State.portAll_iff.mp hport a (by rw [hp]; exact rfl)
  · rw [hlc, hanchor]
    exact hatt hm
  · rw [hlc]
    exact hrec hm

/-! ## The commands of OFFLINE, SUSPECT and RECOVERING -/

/-- ATTACH (R137). -/
theorem OuterStep.attach {arg : Byte} (hs : s.orderly) (h : (s.attach arg).leaves t) : OuterStep s t := by
  obtain ⟨hm, hslots, a, rfl⟩ := State.attach_cases h
  have hf := State.offlineFit_of_mode hs hm
  rw [State.beginAttach_eq]
  have hport (b : ActiveRequest) (hb : b ∈ s.dp.port) : b.owner.fits (.modeAtReset .attaching) = true :=
    Owner.fits_of_master _ (hf.port b hb)
  obtain ⟨u, hu⟩ : ∃ u, u = s.discardHeld fun e => decide (e.cls = .log) := ⟨_, rfl⟩
  have hce : u.ce = s.ce := by rw [hu, State.discardHeld_ce]
  have hlog : u.log = s.log := by rw [hu, State.discardHeld_log]
  have hre : u.re = s.re := by rw [hu, State.discardHeld_re]
  have hdp : u.dp = s.dp := by rw [hu, State.discardHeld_dp]
  have hcf : u.cf = s.cf := by rw [hu, State.discardHeld_cf]
  have hhq : ∀ e ∈ u.hq.entries, e.cls = .log → e.issued = true := by
    intro e he hlog
    rw [hu] at he
    simp only [State.discardHeld_hq, List.mem_filter, HoldEntry.held, Bool.not_eq_true', Bool.and_eq_false_iff,
      Bool.not_eq_false', decide_eq_false_iff_not] at he
    exact he.2.resolve_right fun hne => hne hlog
  have hflight (v : State) (hv : v.dp = u.dp) : v.lcInFlight = false := by
    unfold State.lcInFlight
    rw [hv, hdp]
    exact hf.tounasked.lcInFlight
  rw [← hu]
  refine .attaching ⟨⟨hf.op, hf.phase, hf.stack, hf.successor, hf.fence, rfl, fun c hc => ?_⟩, ⟨?_, hhq⟩, rfl, nofun,
    (congrArg RestoreEngine.stage hre).trans hf.stage, fun w hw => (List.not_mem_nil hw).elim, fun b hb => ?_,
    Nat.zero_le 1, fun _ => rfl, fun _ => ⟨rfl, rfl⟩, fun hl => Bool.noConfusion ((hflight _ (by rfl)).symm.trans hl),
    fun _ => ⟨rfl, rfl, hflight _ (by rfl)⟩⟩ (fun _ => ⟨Nat.le_refl _, Nat.zero_le _⟩) hcf
  · have hc : c ∈ u.ce.contexts := hc
    exact hf.contexts c (hce ▸ hc)
  · have hslots : u.log.slots ≠ 0 := hlog ▸ hslots
    exact hslots
  · have hb : b ∈ u.dp.port := hb
    exact hport b (hdp ▸ hb)

/-- SETLOG (R18). -/
theorem OuterStep.setlog {base slots : Word32} (hs : s.orderly) (h : (s.setlog base slots).leaves t) : OuterStep s t := by
  obtain ⟨hm, rfl⟩ := State.setlog_cases h
  have hf := State.offlineFit_of_mode hs hm
  refine .stays (State.offlineFit.orderly ⟨hf.toatRest.congr rfl rfl rfl, ⟨hf.stage, rfl, rfl, hf.port⟩, hm, hf.attach⟩)
    (Controller.active_eq_false.mpr (.inl hm)) (fun _ => State.ringBounded_empty hf.stage ?_ rfl rfl) id
  exact fun h => Mode.noConfusion (hm.symm.trans h)

/-- DETACH accepted outside ONLINE and FENCED leaves the mode and the operation (R150). -/
theorem OuterStep.detach (hs : s.orderly) (ha : s.oc.active = false) (h : s.detach.leaves t) : OuterStep s t := by
  obtain ⟨hno, rfl⟩ := State.detach_cases h
  have hm := Controller.mode_of_inactive ha
  rw [State.beginDetach_eq (op := s.oc.op) (if_neg (not_or.mpr hm))]
  rcases State.orderly_cases hs with hf | hf | hf | hf | hf
  · rw [State.detachRefusal_detached (.inl hf.mode)] at hno
    cases hno
  · rw [State.detachRefusal_detached (.inr hf.mode)] at hno
    cases hno
  · have hfit : ({ s with
        oc := { s.oc with op := s.oc.op, timer := none, rotationPending := false, detaching := true }
        lc := { s.lc with writes := [], attachRead := .none } } : State).suspectFit :=
      ⟨⟨hf.op, hf.phase, hf.stack, hf.successor, hf.fence, hf.reservations, hf.contexts⟩,
        ⟨hf.stage, rfl, rfl, hf.port⟩, ⟨hf.slots, hf.heldLog⟩, hf.mode, hf.attach⟩
    refine .stays hfit.orderly ha (fun hr => State.ringFits.bounded ⟨hr.1, hr.2.1⟩ ?_ ?_) id
    · exact fun hst => Stage.noConfusion (hf.stage.symm.trans hst)
    · exact fun hst => Mode.noConfusion (hf.mode.symm.trans hst)
  · have hst : s.re.stage = .halted := by
      by_contra hst
      rw [State.detachRefusal_recovering hf.mode hst] at hno
      cases hno
    obtain ⟨-, hflight⟩ := hf.early (by rw [hst]; decide)
    refine .recovering ⟨⟨hf.op, hf.phase, hf.stack, hf.successor, hf.fence, hf.reservations, hf.contexts⟩,
      ⟨hf.slots, hf.heldLog⟩, hf.mode, hf.attach, hf.purpose, hf.running, fun w hw => (List.not_mem_nil hw).elim, hf.port,
      rfl, Nat.zero_le 1, fun _ => ⟨rfl, hflight⟩, fun _ => rfl⟩ rfl fun hr => ⟨⟨hr.1, hr.2.1⟩, fun hs => ?_, fun hs => ?_⟩
    · exact hr.2.2.1 (hs.imp id fun ⟨h1, h2⟩ => ⟨hf.mode, h1, h2⟩)
    · exact Stage.noConfusion (hst.symm.trans hs)
  · exact Bool.noConfusion (ha.symm.trans hf.active)

/-- The stage, an abort asked for and what it halted on change. -/
theorem OuterStep.recoveryStage (hf : s.recoveringFit) {re : RestoreEngine} (hst : s.re.stage ≠ .anchoring)
    (hp : re.purpose = .recovery) (hrun : re.stage ≠ .idle ∧ re.stage ≠ .settling) (hscan : re.scanned = s.re.scanned)
    (hr : s.ringBounded → (re.stage = .scanning ∨ re.stage = .halted ∧ re.resumeScanning = true →
      s.re.scanned < s.log.slots) ∧ (re.stage = .replaying → re.resumeScanning = false)) :
    OuterStep s { s with re := re } := by
  obtain ⟨hw, hflight⟩ := hf.early hst
  refine .recovering ⟨hf.toatRest.congr rfl hf.reservations rfl, ⟨hf.slots, hf.heldLog⟩, hf.mode, hf.attach, hp, hrun,
    hf.writes, hf.port, hf.attachRead, hf.single, fun _ => ⟨hw, hflight⟩, fun _ => hw⟩ rfl fun h => ?_
  obtain ⟨h1, h2⟩ := hr h
  refine ⟨⟨h.1, h.2.1⟩, fun hs => ?_, h2⟩
  rw [show ({ s with re := re } : State).re.scanned = s.re.scanned from hscan]
  exact h1 hs

/-- ABORT in a recovery (R148). -/
theorem OuterStep.abort (hs : s.orderly) (ha : s.oc.active = false) (h : s.abort.leaves t) : OuterStep s t := by
  obtain ⟨hab, hst, rfl⟩ := State.abort_cases h
  have hm : s.oc.mode = .recovering := by
    have hop := (State.atRest_of_orderly hs ha).op
    simp only [State.abortable, hop, Bool.or_eq_true, Bool.and_eq_true, decide_eq_true_eq] at hab
    rcases hab with hab | hab
    · cases hab
    · exact hab.1
  have hf := State.recoveringFit_of_mode hs hm
  exact .recoveryStage hf hst hf.purpose hf.running rfl fun h =>
    ⟨fun hs => h.2.2.1 (hs.imp id fun ⟨h1, h2⟩ => ⟨hm, h1, h2⟩), fun hs => h.2.2.2 hm hs⟩

/-- RESUME of a halted recovery (R149). -/
theorem OuterStep.resume (hs : s.orderly) (ha : s.oc.active = false) (h : s.resume.leaves t) : OuterStep s t := by
  obtain ⟨hst, ⟨hh, rfl⟩ | ⟨-, hop, -⟩⟩ := State.resume_cases h
  · simp only [State.recoveryHalted, Bool.and_eq_true, decide_eq_true_eq] at hh
    obtain ⟨hm, hhalt⟩ := hh
    have hf := State.recoveringFit_of_mode hs hm
    refine .recoveryStage hf hst hf.purpose ?_ rfl fun h => ?_
    · dsimp only
      split <;> exact ⟨nofun, nofun⟩
    · dsimp only
      split
      · rename_i hres
        exact ⟨fun _ => h.2.2.1 (.inr ⟨hm, hhalt, hres⟩), nofun⟩
      · rename_i hres
        refine ⟨fun hs => ?_, fun _ => by simpa using hres⟩
        rcases hs with hs | ⟨hs, -⟩ <;> cases hs
  · exact OpState.noConfusion ((State.atRest_of_orderly hs ha).op.symm.trans hop)

/-! ## Anchors outside ONLINE and FENCED -/

theorem State.lc_owner_mode (hs : s.orderly) (ha : s.oc.active = false) {job : AnchorJob} {r : MemReply}
    (he : s.endsWith (.lcAnchor job) r) :
    s.attachingFit ∧ job.occasion.fits (.modeAtReset .attaching) = true
      ∨ s.recoveringFit ∧ job.occasion.fits (.modeAtReset .recovering) = true := by
  have hfit := State.owner_of_orderly hs he
  have hmode (m : Mode) (hm : s.oc.mode = m) : job.occasion.fits (.modeAtReset m) = true :=
    (AnchorOccasion.fits_congr (a := s.oc) (b := .modeAtReset m) hm _).symm.trans hfit
  rcases State.orderly_cases hs with hf | hf | hf | hf | hf
  · exact Bool.noConfusion ((AnchorOccasion.fits_rest (.inl rfl) _).symm.trans (hmode _ hf.mode))
  · exact .inl ⟨hf, hmode _ hf.mode⟩
  · exact Bool.noConfusion ((AnchorOccasion.fits_rest (.inr rfl) _).symm.trans (hmode _ hf.mode))
  · exact .inr ⟨hf, hmode _ hf.mode⟩
  · exact Bool.noConfusion (ha.symm.trans hf.active)

theorem OuterStep.anchorWritten (hs : s.orderly) (ha : s.oc.active = false) (h : s.anchorWritten = some t) :
    OuterStep s t := by
  obtain ⟨job, he, rfl⟩ := State.anchorWritten_cases h
  rcases State.lc_owner_mode hs ha he with ⟨hf, ho⟩ | ⟨hf, ho⟩
  · exact .attachAnchored hf he ho
  · exact .recovered hf he ho

/-- After an accepted DETACH the copy of the attach's anchor alone is INVALID (R150). -/
theorem OuterStep.attachCopyFailed (hf : s.attachingFit) {job : AnchorJob} {r : MemReply}
    (he : s.endsWith (.lcAnchor job) r) : OuterStep s (s.portFreed.copyFailed job.copy) := by
  obtain ⟨hw, hr, hd⟩ := hf.anchoring_of he
  have hlc := State.copyFailed_lc (s := s.portFreed) job.copy
  have hwrites : (s.portFreed.copyFailed job.copy).lc.writes = [] := by rw [hlc, LogState.setCopy_writes]; exact hw
  refine .attaching (State.attachingFit.moves_freed hf rfl rfl rfl rfl rfl hf.attach ?_ rfl ?_ ?_ ?_ ?_) (fun h => ?_) rfl
  · rw [hlc, LogState.setCopy_reservations]; exact hf.reservations
  · rw [hwrites]; exact Nat.zero_le 1
  · rw [hwrites]; exact fun w hw => (List.not_mem_nil hw).elim
  · exact fun _ => hwrites
  · exact fun hdr => Bool.noConfusion (hd.symm.trans hdr)
  · rw [hlc, LogState.setCopy_durable, LogState.setCopy_live]
    exact ⟨h.1, h.2.1⟩

theorem OuterStep.anchorWriteFails (hs : s.orderly) (ha : s.oc.active = false) {f : MemFailure}
    (h : s.anchorWriteFails f = some t) : OuterStep s t := by
  obtain ⟨job, he, hcase⟩ := State.anchorWriteFails_cases h
  rcases State.lc_owner_mode hs ha he with ⟨hf, -⟩ | ⟨hf, -⟩
  · obtain ⟨-, rfl⟩ | ⟨-, -, rfl⟩ | ⟨-, hm, -⟩ := hcase
    · exact .attachCopyFailed hf he
    · refine .attachFails (s := s) (t := s.portFreed.copyFailed job.copy) (hf.toatRest.congr rfl ?_ rfl) hf.stage rfl rfl _
      rw [State.copyFailed_lc, LogState.setCopy_reservations]
      exact hf.reservations
    · exact absurd hf.mode hm
  · obtain ⟨-, rfl⟩ | ⟨-, hm, -⟩ | ⟨-, -, rfl⟩ := hcase
    · exact .recoveryCopyFailed hf he
    · exact Mode.noConfusion (hm.symm.trans hf.mode)
    · exact .recoveryDeclareDead hf _ _

end

end Sys2Proof.Machine

/-! SUPPORT. Every command, and every step: what the mode promises and the ring's bounds are kept. -/

namespace Sys2Proof.Machine

section
variable {s t : State}

/-- The completion of a detach leaves the part OFFLINE (R151). -/
theorem OuterStep.detachCompletes (h : s.detachCompletes = some t) : OuterStep s t := by
  obtain ⟨hover, rfl⟩ := State.detachCompletes_cases h
  obtain ⟨-, hport, -⟩ := State.detachWaitOver_iff.mp hover
  obtain ⟨u, hu⟩ : ∃ u : State, u = { s.discardHeld (·.isTrack) with
    cf := [], ce := CaptureEngine.reset, lc := LogState.reset, re := RestoreEngine.reset
    oc := { Controller.reset with latch := s.oc.latch, faultLine := s.oc.faultLine } } := ⟨_, rfl⟩
  have hdp : u.dp = s.dp := by rw [hu]; exact State.discardHeld_dp ..
  have hfit : u.offlineFit := by
    subst hu
    refine ⟨⟨rfl, rfl, rfl, rfl, rfl, rfl, fun c hc => ?_⟩, ⟨rfl, rfl, rfl, fun a ha => ?_⟩, rfl, rfl⟩
    · exact List.eq_of_mem_replicate hc
    · have ha : a ∈ s.dp.port := hdp ▸ ha
      exact hport a ha
  have hdone (v : State) (hv : v.core = u.core) (hce : v.ce = u.ce) (hcf : v.cf = u.cf) : OuterStep u v :=
    .same hfit.orderly (Controller.active_eq_false.mpr (.inl hfit.mode)) hv hce hcf
  rw [← hu]
  have hempty : OuterStep s u := by
    refine .stays hfit.orderly (Controller.active_eq_false.mpr (.inl hfit.mode)) (fun _ => ?_) fun _ => by rw [hu]
    refine State.ringBounded_empty hfit.stage ?_ (by rw [hu]; rfl) (by rw [hu]; rfl)
    rw [hfit.mode]
    exact nofun
  have hdrop : u.dropLatch.core = u.core ∧ u.dropLatch.ce = u.ce ∧ u.dropLatch.cf = u.cf := by
    unfold State.dropLatch
    split <;> exact ⟨rfl, rfl, rfl⟩
  exact hempty.trans (hdone _ hdrop.1 hdrop.2.1 hdrop.2.2)

theorem OuterStep.pinReset (s : State) : OuterStep s { State.reset with resetLow := true, pending := s.pending } := by
  have hfit : ({ State.reset with resetLow := true, pending := s.pending } : State).offlineFit :=
    ⟨⟨rfl, rfl, rfl, rfl, rfl, rfl, fun c hc => List.eq_of_mem_replicate hc⟩,
      ⟨rfl, rfl, rfl, fun a ha => (Option.not_mem_none a ha).elim⟩, rfl, rfl⟩
  exact .stays hfit.orderly rfl (fun _ => State.ringBounded_empty rfl nofun rfl rfl) fun _ => rfl

theorem State.active_of_considers (h : s.considers = true) : s.oc.active = true := by
  unfold State.considers at h
  rw [Controller.active_iff]
  cases hm : s.oc.mode <;> simp [hm] at h ⊢

/-- Every command outside ONLINE and FENCED. -/
theorem Does.outerStep {c : Instr} (h : Does c s t) (hs : s.orderly) (ha : s.oc.active = false) : OuterStep s t := by
  obtain ⟨hon, hfen⟩ := Controller.mode_of_inactive ha
  have hrest := State.atRest_of_orderly hs ha
  have hop (o : OpState) (ho : o ≠ .idle) : s.oc.op ≠ o := fun h => ho (h.symm.trans hrest.op)
  have hphase (p : OpPhase) (hp : p ≠ .none) : s.oc.phase ≠ p := fun h => hp (h.symm.trans hrest.phase)
  have howner {o : Owner} {r : MemReply} (he : s.endsWith o r) (hfit : o.fits s.oc = s.oc.active) : False :=
    Bool.noConfusion ((hfit.trans ha).symm.trans (State.owner_of_orderly hs he))
  have hattaching {o : Owner} {r : MemReply} (he : s.endsWith o r)
      (hfit : o.fits s.oc = decide (s.oc.mode = .attaching)) : s.attachingFit :=
    State.attachingFit_of_mode hs (of_decide_eq_true (hfit.symm.trans (State.owner_of_orderly hs he)))
  have hrun (hst : s.re.stage ≠ .idle) := State.recoveringFit_of_stage hs ha hst
  cases c
  case pinReset =>
    obtain rfl : t = _ := h
    exact .pinReset s
  case detachComplete => exact .detachCompletes h
  case resetnRelease | responseToAbandonedRequest | frameBegin | frameError | nop | status =>
    obtain rfl : t = _ := h
    exact .same hs ha rfl rfl rfl
  case faultAssertion => exact .assertFault hs ha h
  case faultDeassertion =>
    obtain rfl := State.deassertFault_cases h
    exact .same hs ha rfl rfl rfl
  case faultLatchTaken =>
    obtain ⟨-, ⟨hm, -⟩ | ⟨-, rfl⟩⟩ := State.takeLatch_cases h
    · exact absurd hm hon
    · exact .dropLatch hs ha
  case upstreamRequest => exact .receive hs ha h
  case rotationTimerExpiry => exact .timerExpires hs ha h
  case pendingRotationTaken =>
    exact absurd (Controller.mayRotate_iff.mp (State.takePendingRotation_cases h).1).1 hon
  case consideration =>
    obtain ⟨e, level, hc, -⟩ := State.consider_cases h
    exact absurd (State.active_of_considers hc) (by simp [ha])
  case downstreamGrant => exact .grant hs ha h
  case downstreamReissue => exact .reissue hs ha h
  case masterReadComplete => exact .readEnds hs ha h
  case masterWriteComplete => exact .writeEnds hs ha h
  case masterWriteFailed => exact .writeFails hs ha h
  case captureReadComplete =>
    obtain ⟨i, he, -⟩ := State.captureRead_cases h
    exact (howner he rfl).elim
  case capturePayloadWriteComplete =>
    obtain ⟨i, he, -⟩ := State.capturePayload_cases h
    exact (howner he rfl).elim
  case captureHeaderWriteComplete =>
    obtain ⟨i, he, -⟩ := State.captureHeader_cases h
    exact (howner he rfl).elim
  case captureRequestFailed =>
    obtain ⟨i, part, he, -⟩ := State.captureFails_cases h
    exact (howner he rfl).elim
  case markerWriteComplete =>
    obtain ⟨slot, he, -⟩ := State.markerWritten_cases h
    exact (howner he rfl).elim
  case markerWriteFailed =>
    obtain ⟨slot, he, -⟩ := State.markerWriteFails_cases h
    exact (howner he rfl).elim
  case voidWriteComplete =>
    obtain ⟨slot, he, -⟩ := State.voidWritten_cases h
    exact (howner he rfl).elim
  case voidWriteFailed =>
    obtain ⟨slot, he, -⟩ := State.voidWriteFails_cases h
    exact (howner he rfl).elim
  case anchorWriteComplete => exact .anchorWritten hs ha h
  case anchorWriteFailed => exact .anchorWriteFails hs ha h
  case anchorReadComplete =>
    refine .anchorRead ?_ h
    obtain ⟨o, f, rfl | ⟨a, rfl⟩, he, -⟩ | ⟨d, -, he, -⟩ | ⟨a, d, -, he, -⟩ := State.anchorRead_cases h
    all_goals exact hattaching he rfl
  case tailReadComplete =>
    refine .tailRead ?_ h
    obtain ⟨o, rfl | ⟨d, rfl⟩, he, -⟩ := State.tailRead_cases h
    all_goals exact hattaching he rfl
  case replayReadComplete =>
    obtain ⟨hst, hp, -⟩ := State.replayRead_cases h
    have := (hrun (by rw [hst]; decide)).purpose
    exact RestorePurpose.noConfusion (hp.symm.trans this)
  case restoreWriteComplete =>
    obtain ⟨hst, hp, -⟩ := State.restoreEnds_cases h
    have := (hrun (by rw [hst]; decide)).purpose
    exact RestorePurpose.noConfusion (hp.symm.trans this)
  case scanReadComplete =>
    have hst := (State.scanRead_cases h).1
    exact .scanRead (hrun (by rw [hst]; decide)) h
  case recoveryReadComplete =>
    have hst := (State.recoveryRead_cases h).1
    exact .recoveryRead (hrun (by rw [hst]; decide)) h
  case recoveryRestoreComplete =>
    have hst := (State.recoveryRestoreEnds_cases h).1
    exact .recoveryRestoreEnds (hrun (by rw [hst]; decide)) h
  case attachDrainEnd =>
    obtain ⟨a, -, hm, -⟩ := State.drainEnds_cases h
    exact .drainEnds (State.attachingFit_of_mode hs hm) h
  case orderingWaitEnd => exact absurd (State.orderingEnds_cases h).1 (hphase _ nofun)
  case commitWaitEnd => exact absurd (State.commitWaitEnds_cases h).1 (hphase _ nofun)
  case rotateWaitEnd => exact absurd (State.rotateWaitEnds_cases h).1 (hphase _ nofun)
  case settlingEnd =>
    have hst := (State.settle_cases h).1
    exact absurd hst (hrun (by rw [hst]; decide)).running.2
  case attachKeep | attachFormat => exact .attach hs h
  case recover => exact .recover hs h
  case detach => exact .detach hs ha h
  case openEpoch => exact absurd (State.openEpoch_cases h).1 hon
  case commit => exact absurd (State.commit_cases h).1 hon
  case rotate => exact absurd (State.rotate_cases h).1 hon
  case rollback =>
    obtain ⟨hm | hm, -⟩ := State.rollback_cases h
    · exact absurd hm hon
    · simp only [Controller.frozen, Bool.and_eq_true, decide_eq_true_eq] at hm
      exact absurd hm.1 hfen
  case abort => exact .abort hs ha h
  case resume => exact .resume hs ha h
  case discard => exact absurd (State.discard_cases h).1 (hop _ nofun)
  case thaw =>
    have hm := (State.thaw_cases h).1
    simp only [Controller.frozen, Bool.and_eq_true, decide_eq_true_eq] at hm
    exact absurd hm.1 hfen
  case setlog => exact .setlog hs h
  case setoptHighWaterMark =>
    obtain ⟨rfl, -⟩ := State.setOption_cases h
    have harmed : OuterStep s { s with lc := { s.lc with armed := true } } := .still ha hs rfl ⟨rfl, rfl⟩ rfl rfl rfl
    exact harmed.and_same ha rfl rfl rfl
  all_goals
    have hframe := h.frame
    refine .same hs ha ?_ (hframe .ce (by simp [footprint])) (hframe .cf (by simp [footprint]))
    simp only [State.core]
    rw [hframe .log (by simp [footprint]), hframe .hq (by simp [footprint]), hframe .lc (by simp [footprint]),
      hframe .re (by simp [footprint]), hframe .port (by simp [footprint]), hframe .oc (by simp [footprint])]

/-! ## Every step -/

/-- Every command keeps what the mode promises. -/
theorem Does.orderly {c : Instr} (h : Does c s t) (hs : s.orderly) : t.orderly := by
  cases ha : s.oc.active
  case false => exact (h.outerStep hs ha).orderly
  case true =>
    by_cases hr : c = .pinReset
    · subst hr
      obtain rfl : t = _ := h
      exact (OuterStep.pinReset s).orderly
    by_cases hd : c = .detachComplete
    · subst hd
      exact (OuterStep.detachCompletes h).orderly
    have hf := (State.orderly_iff_epochsFit ha).mp hs
    exact ((h.epochStep hf hr hd).fits hf).orderly

/-- Settles O56: every command by its mode, then what follows at once. -/
theorem modesStayOrderly : Obligations.ModesStayOrderly := by
  intro s t hs h
  refine step_keeps (inv := State.orderly) ?_ ?_ ?_ ?_ ?_ hs h
  · exact fun _ _ hs => State.orderly_congr hs rfl id
  · exact fun _ _ hs => State.orderly_congr hs rfl id
  · exact fun _ _ hs => State.orderly_congr hs rfl id
  · exact fun s _ _ ht => State.orderly_finish s ht
  · exact fun _ _ _ hs h => h.orderly hs

/-- Every command of an orderly part keeps the ring bounded. -/
theorem Does.ringBounded {c : Instr} (h : Does c s t) (hs : s.orderly) (hr : s.ringBounded) : t.ringBounded := by
  cases ha : s.oc.active
  case false => exact (h.outerStep hs ha).ring hr
  case true =>
    by_cases hreset : c = .pinReset
    · subst hreset
      obtain rfl : t = _ := h
      exact (OuterStep.pinReset s).ring hr
    by_cases hd : c = .detachComplete
    · subst hd
      exact (OuterStep.detachCompletes h).ring hr
    have hf := (State.orderly_iff_epochsFit ha).mp hs
    have hstep := h.epochStep hf hreset hd
    exact (State.ringBounded_iff_ringFits (hstep.fits hf)).mpr
      (hstep.ring hf ((State.ringBounded_iff_ringFits hf).mp hr))

theorem State.ringBounded_finish (b : State) (h : s.ringBounded) : (finish b s).ringBounded := by
  unfold State.ringBounded at h ⊢
  rw [finish_lc, finish_log, finish_re, finish_oc]
  exact h

/-- Settles O58: an orderly part with a bounded ring stays one, by every command. -/
theorem ringStaysBounded : Obligations.RingStaysBounded := by
  intro s t hs hr h
  refine (step_keeps (inv := fun s => s.orderly ∧ s.ringBounded) ?_ ?_ ?_ ?_ ?_ ⟨hs, hr⟩ h).2
  · exact fun _ _ ⟨hs, hr⟩ => ⟨State.orderly_congr hs rfl id, hr⟩
  · exact fun _ _ ⟨hs, hr⟩ => ⟨State.orderly_congr hs rfl id, hr⟩
  · exact fun _ _ ⟨hs, hr⟩ => ⟨State.orderly_congr hs rfl id, hr⟩
  · exact fun s _ _ ⟨ht, hr⟩ => ⟨State.orderly_finish s ht, State.ringBounded_finish s hr⟩
  · exact fun _ _ _ ⟨hs, hr⟩ h => ⟨h.orderly hs, h.ringBounded hs hr⟩

end

end Sys2Proof.Machine

/-! SUPPORT. The operation in progress in ONLINE and FENCED: what it leaves open, and the two forms a step leaves it in. -/

namespace Sys2Proof.Machine

section
variable {s t : State}

/-! ## What the operation asks for -/

theorem State.anchorsDue_congr (hp : t.dp.port = s.dp.port) (hw : t.lc.writes = s.lc.writes) :
    t.anchorsDue = s.anchorsDue := by
  rw [State.anchorsDue_eq, State.anchorsDue_eq, hp, hw]

theorem State.anchorsDue_queued {w : LogWrite} (hp : t.dp.port = s.dp.port) (hw : t.lc.writes = s.lc.writes ++ [w])
    (hs : s.anchorsDue = []) : t.anchorsDue = w.occasion.toList := by
  rw [State.anchorsDue_eq] at hs ⊢
  rw [hp, hw, List.filterMap_append, ← List.append_assoc, hs]
  cases w <;> rfl

theorem State.markersDue_congr (hr : t.lc.reservations = s.lc.reservations) : t.markersDue = s.markersDue := by
  unfold State.markersDue
  rw [hr]

/-- The phases in which a marker is asked for. -/
def OpPhase.asksMarker : OpPhase → Prop
  | .openMarker => True
  | .rotateMarker => True
  | .rotateLateMarker _ => True
  | _ => False

/-- The operations that go through phases (R49, R53, R55). -/
theorem OpPhase.operation_mem {phase : OpPhase} {op : OpState} (h : phase.operation = some op) :
    op ∈ [OpState.opening, .committing, .rotating] := by
  cases phase
  case none => cases h
  all_goals
    obtain rfl := Option.some.inj h
    decide

/-- What of the operation in progress the steps of ONLINE and FENCED keep. -/
structure State.opFits (s : State) : Prop where
  phase : if s.oc.phase = .none then s.oc.op ∉ [OpState.opening, .committing, .rotating]
    else s.oc.phase.operation = some s.oc.op
  marks : s.oc.phase.markersWanted (s.oc.stack.map Level.durable)
  replays : s.re.stage = .settling ∨ s.re.stage = .replaying → s.oc.op = .rolling
  anchoring : s.re.stage = .anchoring → s.oc.op = .rolling ∨ s.oc.op = .halted
  halted : s.re.stage = .halted → s.oc.op = .halted ∨ s.oc.op = .detaching
  fewAnchors : s.anchorsDue.length ≤ 1
  awaited : ∀ o ∈ s.anchorsDue, o.awaited s
  fewMarkers : s.markersDue.length ≤ 1
  asked : ∀ r ∈ s.markersDue,
    s.oc.phase = .openMarker ∧ r.level = s.oc.stack.length ∨ s.oc.phase = .rotateMarker
      ∨ ∃ origin, s.oc.phase = .rotateLateMarker origin

theorem State.operationFits_iff (ha : s.oc.active = true) : s.operationFits ↔ s.opFits := by
  constructor
  · rintro ⟨hphase, hmark, hstage, hlen, hawait, hmlen, hmdue⟩
    obtain ⟨h1, h2, h3⟩ := hstage ha
    exact ⟨hphase, (State.markersFit_iff s).mp hmark, h1, h2, h3, hlen, hawait, hmlen, hmdue⟩
  · rintro ⟨hphase, hmark, h1, h2, h3, hlen, hawait, hmlen, hmdue⟩
    exact ⟨hphase, (State.markersFit_iff s).mpr hmark, fun _ => ⟨h1, h2, h3⟩, hlen, hawait, hmlen, hmdue⟩

/-! ## What stands, by the operation -/

/-- The operation asks for no anchor and no marker. -/
structure State.asksNothing (s : State) : Prop where
  anchors : s.anchorsDue = []
  markers : s.markersDue = []

theorem State.asksNothing.congr (h : s.asksNothing) (hp : t.dp.port = s.dp.port) (hw : t.lc.writes = s.lc.writes)
    (hr : t.lc.reservations = s.lc.reservations) : t.asksNothing :=
  ⟨(State.anchorsDue_congr hp hw).trans h.anchors, (State.markersDue_congr hr).trans h.markers⟩

/-- The anchors due are those of epochs. -/
theorem State.epochsFit.anchorsDue (h : s.epochsFit) : ∀ o ∈ s.anchorsDue, o.fits .onlineAtReset = true := by
  intro o ho
  rw [State.anchorsDue_eq] at ho
  rcases List.mem_append.mp ho with ho | ho
  · obtain ⟨a, ha, hoc⟩ := List.mem_filterMap.mp ho
    have hfit := h.port a (by simpa using ha)
    cases hown : a.owner <;> rw [hown] at hoc hfit <;> cases hoc
    exact hfit
  · obtain ⟨w, hw, hoc⟩ := List.mem_filterMap.mp ho
    have hfit := h.writes w hw
    cases w <;> cases hoc
    exact hfit

namespace State.opFits

variable (h : s.opFits)
include h

/-- No anchor is due where the operation awaits none. -/
theorem anchorsDue_nil (hf : s.epochsFit) (hn : ∀ o : AnchorOccasion, o.fits .onlineAtReset = true → ¬o.awaited s) :
    s.anchorsDue = [] :=
  List.eq_nil_iff_forall_not_mem.mpr fun o ho => hn o (hf.anchorsDue o ho) (h.awaited o ho)

theorem markersDue_nil (hn : ¬s.oc.phase.asksMarker) : s.markersDue = [] := by
  refine List.eq_nil_iff_forall_not_mem.mpr fun r hr => hn ?_
  rcases h.asked r hr with ⟨hp, -⟩ | hp | ⟨origin, hp⟩ <;> rw [hp] <;> trivial

/-- A phase goes with its operation, and no restore runs in it. -/
theorem phased (hf : s.epochsFit) (hp : s.oc.phase ≠ .none) :
    s.oc.phase.operation = some s.oc.op ∧ s.re.stage = .idle := by
  have hop := h.phase
  rw [if_neg hp] at hop
  refine ⟨hop, ?_⟩
  have hno : s.oc.op ≠ .rolling ∧ s.oc.op ≠ .halted ∧ s.oc.op ≠ .detaching := by
    refine ⟨?_, ?_, ?_⟩ <;> intro heq <;> rw [heq] at hop <;> revert hop <;> cases s.oc.phase <;> exact nofun
  cases hst : s.re.stage
  case idle => rfl
  case scanning => exact absurd hst hf.notScanning
  case settling => exact absurd (h.replays (.inl hst)) hno.1
  case replaying => exact absurd (h.replays (.inr hst)) hno.1
  case anchoring => exact ((h.anchoring hst).elim hno.1 hno.2.1).elim
  case halted => exact ((h.halted hst).elim hno.2.1 hno.2.2).elim

/-- Of a phase that neither asks for a marker nor awaits an anchor, nothing is due. -/
theorem asksNothing_of (hf : s.epochsFit) (hm : ¬s.oc.phase.asksMarker)
    (hn : ∀ o : AnchorOccasion, o.fits .onlineAtReset = true → ¬o.awaited s) : s.asksNothing :=
  ⟨h.anchorsDue_nil hf hn, h.markersDue_nil hm⟩

/-- Outside OPENING, COMMITTING and ROTATING there is no phase. -/
theorem phase_none (hop : s.oc.op ∉ [OpState.opening, .committing, .rotating]) : s.oc.phase = .none := by
  by_contra hp
  have hphase := h.phase
  rw [if_neg hp] at hphase
  exact hop (OpPhase.operation_mem hphase)

/-- Without a phase every level is durable, and no marker is due. -/
theorem durable_of (hp : s.oc.phase = .none) : ∀ l ∈ s.oc.stack, l.durable = true := by
  have hm := h.marks
  rw [hp] at hm
  exact fun l hl => hm _ (List.mem_map_of_mem hl)

end State.opFits

/-- With no phase, and no anchor of a restore awaited, nothing is due. -/
theorem AnchorOccasion.not_awaited (hp : s.oc.phase = .none) (hst : s.re.stage ≠ .anchoring)
    (o : AnchorOccasion) (ho : o.fits .onlineAtReset = true) : ¬o.awaited s := by
  cases o
  case attachKeep | formatA | formatB | recovery => cases ho
  case rollback | discard => exact fun h => hst h.2
  all_goals simp [AnchorOccasion.awaited, hp]

/-- A part at IDLE: no phase, no restore, and nothing due. -/
structure State.opIdle (s : State) : Prop extends s.asksNothing where
  phase : s.oc.phase = .none
  stage : s.re.stage = .idle
  durable : ∀ l ∈ s.oc.stack, l.durable = true

theorem State.opFits.idle (h : s.opFits) (hf : s.epochsFit) (hop : s.oc.op = .idle) : s.opIdle := by
  have hp := h.phase_none (by rw [hop]; decide)
  have hst : s.re.stage = .idle := by
    cases hst : s.re.stage
    case idle => rfl
    case scanning => exact absurd hst hf.notScanning
    case settling => exact OpState.noConfusion (hop.symm.trans (h.replays (.inl hst)))
    case replaying => exact OpState.noConfusion (hop.symm.trans (h.replays (.inr hst)))
    case anchoring => rcases h.anchoring hst with h | h <;> exact OpState.noConfusion (hop.symm.trans h)
    case halted => rcases h.halted hst with h | h <;> exact OpState.noConfusion (hop.symm.trans h)
  refine ⟨h.asksNothing_of hf (by rw [hp]; exact id) ?_, hp, hst, h.durable_of hp⟩
  exact AnchorOccasion.not_awaited hp (by rw [hst]; decide)

/-- A part at ROLLING or HALTED, its anchor not yet asked for: no phase, and nothing due. -/
structure State.opRestoring (s : State) : Prop extends s.asksNothing where
  phase : s.oc.phase = .none
  durable : ∀ l ∈ s.oc.stack, l.durable = true

theorem State.opFits.restoring (h : s.opFits) (hf : s.epochsFit) (hop : s.oc.op = .rolling ∨ s.oc.op = .halted)
    (hst : s.re.stage ≠ .anchoring) : s.opRestoring := by
  have hp := h.phase_none (by rcases hop with hop | hop <;> rw [hop] <;> decide)
  exact ⟨h.asksNothing_of hf (by rw [hp]; exact id) (AnchorOccasion.not_awaited hp hst), hp, h.durable_of hp⟩

/-! ## The two forms a step leaves -/

/-- No phase: every level is durable, nothing is due, and the stage goes with the operation. -/
theorem State.opFits.unphased (hp : t.oc.phase = .none) (hop : t.oc.op ∉ [OpState.opening, .committing, .rotating])
    (hd : ∀ l ∈ t.oc.stack, l.durable = true)
    (hr : t.re.stage = .settling ∨ t.re.stage = .replaying → t.oc.op = .rolling) (hna : t.re.stage ≠ .anchoring)
    (hh : t.re.stage = .halted → t.oc.op = .halted ∨ t.oc.op = .detaching) (hn : t.asksNothing) : t.opFits := by
  refine ⟨?_, ?_, hr, fun h => absurd h hna, hh, ?_, ?_, ?_, ?_⟩
  · rw [if_pos hp]
    exact hop
  · rw [hp]
    intro b hb
    obtain ⟨l, hl, rfl⟩ := List.mem_map.mp hb
    exact hd l hl
  all_goals simp [hn.anchors, hn.markers]

/-- An operation that has ended: the part is at IDLE, and no restore runs. -/
theorem State.opFits.ended (hp : t.oc.phase = .none) (hop : t.oc.op = .idle) (hst : t.re.stage = .idle)
    (hd : ∀ l ∈ t.oc.stack, l.durable = true) (hn : t.asksNothing) : t.opFits := by
  refine .unphased hp (by rw [hop]; decide) hd ?_ ?_ ?_ hn <;> rw [hst]
  · exact nofun
  · decide
  · exact nofun

/-- An operation at a phase, what it asks for its own. -/
theorem State.opFits.phasedTo (hp : t.oc.phase ≠ .none) (hop : t.oc.phase.operation = some t.oc.op)
    (hm : t.oc.phase.markersWanted (t.oc.stack.map Level.durable)) (hst : t.re.stage = .idle)
    (ha : t.anchorsDue = [] ∨ ∃ o, t.anchorsDue = [o] ∧ o.awaited t)
    (hr : t.markersDue = [] ∨ ∃ r, t.markersDue = [r] ∧ (t.oc.phase = .openMarker ∧ r.level = t.oc.stack.length
      ∨ t.oc.phase = .rotateMarker ∨ ∃ origin, t.oc.phase = .rotateLateMarker origin)) : t.opFits := by
  have hno (x : Stage) (hx : x ≠ .idle) : t.re.stage ≠ x := fun h => hx (h.symm.trans hst)
  refine ⟨?_, hm, fun h => ?_, fun h => absurd h (hno _ nofun), fun h => absurd h (hno _ nofun), ?_, ?_, ?_, ?_⟩
  · rw [if_neg hp]
    exact hop
  · exact (h.elim (hno _ nofun) (hno _ nofun)).elim
  · rcases ha with ha | ⟨o, ha, -⟩ <;> simp [ha]
  · rcases ha with ha | ⟨o, ha, ho⟩
    · simp [ha]
    · simpa [ha] using ho
  · rcases hr with hr | ⟨r, hr, -⟩ <;> simp [hr]
  · rcases hr with hr | ⟨r, hr, hasked⟩
    · simp [hr]
    · simpa [hr] using hasked

/-- A rollback or a discard at its anchor, which it alone awaits. -/
theorem State.opFits.restoreAnchored {o : AnchorOccasion} (hp : t.oc.phase = .none)
    (hop : t.oc.op = .rolling ∨ t.oc.op = .halted) (hd : ∀ l ∈ t.oc.stack, l.durable = true)
    (hst : t.re.stage = .anchoring) (ha : t.anchorsDue = [o]) (ho : o.awaited t) (hm : t.markersDue = []) :
    t.opFits := by
  have hno (x : Stage) (hx : x ≠ .anchoring) : t.re.stage ≠ x := fun h => hx (h.symm.trans hst)
  refine ⟨?_, ?_, fun h => ?_, fun _ => hop, fun h => absurd h (hno _ nofun), ?_, ?_, ?_, ?_⟩
  · rw [if_pos hp]
    rcases hop with hop | hop <;> rw [hop] <;> decide
  · rw [hp]
    intro b hb
    obtain ⟨l, hl, rfl⟩ := List.mem_map.mp hb
    exact hd l hl
  · exact (h.elim (hno _ nofun) (hno _ nofun)).elim
  · simp [ha]
  · simpa [ha] using ho
  all_goals simp [hm]

end

end Sys2Proof.Machine

/-! SUPPORT. The operations on epochs and the operation in progress: OPEN, COMMIT, ROTATE, their waits and markers. -/

namespace Sys2Proof.Machine

theorem Beside.opFits {s t : State} (h : Beside s t) (hf : s.epochsFit) (hs : s.opFits) : t.opFits :=
  (State.operationFits_iff (h.fits hf).active).mp (h.operation hf ((State.operationFits_iff hf.active).mpr hs))

/-- All levels but an inner one are durable once it is popped. -/
theorem State.durable_dropLast {s : State}
    (h : ∃ base, s.oc.stack.map Level.durable = base ++ [false] ∧ ∀ b ∈ base, b = true) :
    ∀ l ∈ s.oc.stack.dropLast, l.durable = true := by
  obtain ⟨base, hmap, hbase⟩ := h
  intro l hl
  have hmem : l.durable ∈ (s.oc.stack.map Level.durable).dropLast := by
    rw [← List.map_dropLast]
    exact List.mem_map_of_mem hl
  rw [hmap, List.dropLast_concat] at hmem
  exact hbase _ hmem

theorem OpPhase.asksMarker_cases {p : OpPhase} (h : p.asksMarker) :
    p = .openMarker ∨ p = .rotateMarker ∨ ∃ origin, p = .rotateLateMarker origin := by
  cases p
  case openMarker => exact .inl rfl
  case rotateMarker => exact .inr (.inl rfl)
  case rotateLateMarker origin => exact .inr (.inr ⟨origin, rfl⟩)
  all_goals exact h.elim

theorem State.failOpen_parts (s : State) (c : Condition) :
    (s.failOpen c).oc.stack = s.oc.stack.dropLast ∧ (s.failOpen c).oc.op = s.oc.op
      ∧ (s.failOpen c).oc.phase = s.oc.phase ∧ (s.failOpen c).re = s.re ∧ (s.failOpen c).lc = s.lc
      ∧ (s.failOpen c).dp.port = s.dp.port := by
  unfold State.failOpen State.stopTimerIfEmpty
  dsimp only
  split <;> exact ⟨rfl, rfl, rfl, rfl, rfl, rfl⟩

namespace State.opFits

variable {s : State}

/-- The end of an operation, its levels durable and nothing due. -/
theorem endOperation (hst : s.re.stage = .idle) (hd : ∀ l ∈ s.oc.stack, l.durable = true) (hn : s.asksNothing) :
    s.endOperation.opFits :=
  .ended rfl rfl hst hd (hn.congr rfl rfl rfl)

/-! ## Starts (R48, R52, R53, R55, R117) -/

section
variable (h : s.opIdle)
include h

theorem pushLevel (lc : LogState) (w : Word32) (hw : lc.writes = s.lc.writes)
    (hr : lc.reservations = s.lc.reservations) : (({ s with lc := lc } : State).pushLevel w).opFits := by
  have hn : (({ s with lc := lc } : State).pushLevel w).asksNothing := h.toasksNothing.congr rfl hw hr
  refine .phasedTo nofun rfl ⟨s.oc.stack.map Level.durable, List.map_append .., fun b hb => ?_⟩ h.stage
    (.inl hn.anchors) (.inl hn.markers)
  obtain ⟨l, hl, rfl⟩ := List.mem_map.mp hb
  exact h.durable l hl

theorem all_durable : ∀ b ∈ s.oc.stack.map Level.durable, b = true := fun b hb => by
  obtain ⟨l, hl, rfl⟩ := List.mem_map.mp hb
  exact h.durable l hl

theorem startRotation (lc : LogState) (w : Word32) (o : RotationOrigin) (hw : lc.writes = s.lc.writes)
    (hr : lc.reservations = s.lc.reservations) : (({ s with lc := lc } : State).startRotation w o).opFits := by
  have hn : (({ s with lc := lc } : State).startRotation w o).asksNothing := h.toasksNothing.congr rfl hw hr
  have hall := all_durable h
  exact .phasedTo nofun rfl hall h.stage (.inl hn.anchors) (.inl hn.markers)

theorem startCommit :
    ({ s with oc := { s.oc with stamp := 0, op := .committing, phase := .commitWait } } : State).opFits := by
  have hn := h.toasksNothing.congr
    (t := { s with oc := { s.oc with stamp := 0, op := .committing, phase := .commitWait } }) rfl rfl rfl
  have hall := all_durable h
  exact .phasedTo nofun rfl hall h.stage (.inl hn.anchors) (.inl hn.markers)

theorem timerRotation : s.timerRotation.opFits ∨ Beside s s.timerRotation := by
  rcases State.timerRotation_cases s with ⟨-, ht⟩ | ⟨-, ht⟩ <;> rw [ht]
  · exact .inr (.same rfl)
  · exact .inl (startRotation h { s.lc with nextSerial := s.lc.nextSerial + 1 } _ _ rfl rfl)

theorem acceptRollback (j : Nat) (o : RollbackOrigin) : (s.acceptRollback j o).opFits := by
  unfold State.acceptRollback
  obtain ⟨u, hu⟩ : ∃ u : State, u = { s with
    re := { s.re with
      stage := .settling, purpose := .rollback, origin := o, target := j, targetSerial := s.oc.serialAt j
      fromFreeze := s.oc.frozen
      restored := 0, abortRequested := false, haltCondition := .none, rangeBreak := .none, handling := .header }
    oc := { s.oc with op := .rolling } } := ⟨_, rfl⟩
  rw [← hu]
  have hoc : (u.discardHeld (s.oc.inRange j)).oc = { s.oc with op := .rolling } := by rw [State.discardHeld_oc, hu]
  have hst : (u.discardHeld (s.oc.inRange j)).re.stage = .settling := by rw [State.discardHeld_re, hu]
  refine .unphased ?_ ?_ ?_ ?_ ?_ ?_ (h.toasksNothing.congr ?_ ?_ ?_)
  · rw [hoc]; exact h.phase
  · rw [hoc]; exact of_decide_eq_true rfl
  · rw [hoc]; exact h.durable
  · rw [hoc]; exact fun _ => rfl
  · rw [hst]; decide
  · rw [hst]; exact nofun
  · rw [State.discardHeld_dp, hu]
  · rw [State.discardHeld_lc, hu]
  · rw [State.discardHeld_lc, hu]

/-- An inner COMMIT pops its level, and the part stays at IDLE. -/
theorem commitInner (hop : s.oc.op = .idle) (k : Nat) (l : Level) : (s.commitInner k l).opFits := by
  have hstack : (s.commitInner k l).oc.stack.map Level.durable = (s.oc.stack.map Level.durable).dropLast := by
    have hset : (s.setLevel (k - 1) fun m => { m with captures := saturatingAdd m.captures l.captures }).oc.stack.map
        Level.durable = s.oc.stack.map Level.durable := by
      rw [State.setLevel_oc]
      dsimp only
      split
      · rfl
      · exact Beside.map_modify_of_eq
          (f := fun m : Level => { m with captures := saturatingAdd m.captures l.captures }) (fun _ => rfl) _ _
    rw [← hset, ← List.map_dropLast]
    rfl
  have hmarkers : (s.commitInner k l).markersDue = [] := by
    have hres : (s.commitInner k l).lc.reservations = s.lc.reservations.map fun e =>
        if e.purpose = .capture ∧ e.level = k then
          { e with level := k - 1, serial := s.oc.serialAt (k - 1) } else e := rfl
    have hkeep : ((fun r : Reservation => decide (r.purpose = .marker)) ∘ fun e =>
        if e.purpose = .capture ∧ e.level = k then { e with level := k - 1, serial := s.oc.serialAt (k - 1) } else e)
        = fun r : Reservation => decide (r.purpose = .marker) := by
      funext e
      dsimp only [Function.comp]
      split <;> rfl
    unfold State.markersDue
    rw [hres, List.filter_map, hkeep, show s.lc.reservations.filter _ = [] from h.markers]
    rfl
  refine .ended h.phase hop h.stage (fun x hx => ?_) ⟨(State.anchorsDue_congr rfl rfl).trans h.anchors, hmarkers⟩
  refine all_durable h _ (List.mem_of_mem_dropLast ?_)
  rw [← hstack]
  exact List.mem_map_of_mem hx

end

/-! ## Waits (R49 to R51, R54 to R57) -/

/-- Where the phase wants every marker durable. -/
theorem durable_at (h : s.opFits) {p : OpPhase} (hp : s.oc.phase = p)
    (hall : ∀ bits, p.markersWanted bits → ∀ b ∈ bits, b = true) : ∀ l ∈ s.oc.stack, l.durable = true :=
  fun _ hl => hall _ (hp ▸ h.marks) _ (List.mem_map_of_mem hl)

/-- The levels that a dead log leaves are durable. -/
theorem deathStack_durable (h : s.opFits) : ∀ l ∈ s.oc.deathStack, l.durable = true := by
  unfold Controller.deathStack
  cases hp : s.oc.phase
  case openWait | openMarker =>
    refine State.durable_dropLast ?_
    have hm := h.marks
    rw [hp] at hm
    exact hm
  case rotateLateMarker =>
    have hm := h.marks
    rw [hp] at hm
    exact State.durable_dropLast ⟨[], hm, nofun⟩
  all_goals exact h.durable_at hp fun _ => id

/-- The operation ends for a dead log. -/
theorem endForDeadLog (h : s.opFits) (hn : s.asksNothing) : s.endForDeadLog.opFits := by
  have hframe := s.abandonEpochOp_onlyChanges
  have hlc : s.abandonEpochOp.lc = s.lc := hframe .lc (by decide)
  have hport : s.abandonEpochOp.dp.port = s.dp.port := hframe .port (by decide)
  have hstack : s.endForDeadLog.oc.stack = s.oc.deathStack := by
    have : s.endForDeadLog.oc.stack = s.abandonEpochOp.oc.stack := rfl
    rw [this, State.abandonEpochOp_oc]
    rfl
  refine .ended rfl rfl rfl ?_ (hn.congr hport (congrArg LogState.writes hlc) (congrArg LogState.reservations hlc))
  rw [hstack]
  exact h.deathStack_durable

section
variable (h : s.opFits) (hf : s.epochsFit)
include h hf

/-- Nothing is due while an OPEN, COMMIT or ROTATE waits. -/
theorem waiting (hp : s.oc.phase = .openWait ∨ s.oc.phase = .commitWait ∨ s.oc.phase = .rotateWait) :
    s.asksNothing ∧ s.re.stage = .idle ∧ s.oc.phase.operation = some s.oc.op := by
  have hne : s.oc.phase ≠ .none := by rcases hp with hp | hp | hp <;> rw [hp] <;> decide
  obtain ⟨hop, hst⟩ := h.phased hf hne
  refine ⟨h.asksNothing_of hf ?_ fun o ho => ?_, hst, hop⟩
  · rcases hp with hp | hp | hp <;> rw [hp] <;> exact id
  · cases o
    case attachKeep | formatA | formatB | recovery => cases ho
    case rollback | discard => exact fun ho => Stage.noConfusion (hst.symm.trans ho.2)
    all_goals rcases hp with hp | hp | hp <;> simp [AnchorOccasion.awaited, hp]

/-- An OPEN fails with nothing due: its level is popped, and it ends. -/
theorem failOpen_ended (hp : s.oc.phase = .openWait ∨ s.oc.phase = .openMarker) (hn : s.asksNothing) (c : Condition) :
    (s.failOpen c).endOperation.opFits := by
  obtain ⟨hstack, -, -, hre, hlc, hport⟩ := s.failOpen_parts c
  have hst := (h.phased hf (by rcases hp with hp | hp <;> rw [hp] <;> decide)).2
  refine .endOperation (by rw [hre]; exact hst) ?_ (hn.congr hport (by rw [hlc]) (by rw [hlc]))
  rw [hstack]
  refine State.durable_dropLast ?_
  have hm := h.marks
  rcases hp with hp | hp <;> rw [hp] at hm <;> exact hm

end

/-- With nothing due, a marker's slot is reserved and its header queued. -/
theorem markerAsked {t : State} {k slot : Nat} {w : Word32} (hn : s.asksNothing)
    (hr : t.lc.reservations = (s.reserve .marker k w).lc.reservations)
    (hw : t.lc.writes = (s.reserve .marker k w).lc.writes ++ [.openHeader slot]) (hport : t.dp.port = s.dp.port)
    (hp : t.oc.phase ≠ .none) (hop : t.oc.phase.operation = some t.oc.op)
    (hm : t.oc.phase.markersWanted (t.oc.stack.map Level.durable)) (hst : t.re.stage = .idle)
    (hasked : t.oc.phase = .openMarker ∧ k = t.oc.stack.length ∨ t.oc.phase = .rotateMarker
      ∨ ∃ origin, t.oc.phase = .rotateLateMarker origin) : t.opFits := by
  rw [State.reserve_eq] at hr hw
  refine .phasedTo hp hop hm hst (.inl (State.anchorsDue_queued hport hw hn.anchors)) (.inr ⟨{
    slot := s.lc.head, sequence := s.lc.nextSequence, purpose := .marker, level := k, serial := w, state := .pending
    failure := none }, ?_, hasked⟩)
  unfold State.markersDue
  rw [hr, List.filter_append, show s.lc.reservations.filter _ = [] from hn.markers]
  rfl

theorem orderingEnds {t : State} (h : s.opFits) (hf : s.epochsFit) (ht : s.orderingEnds = some t) : t.opFits := by
  obtain ⟨hp, ⟨-, rfl⟩ | ⟨-, rfl⟩ | ⟨hg, rfl⟩⟩ := State.orderingEnds_cases ht
  all_goals obtain ⟨hn, hst, hop⟩ := h.waiting hf (.inl hp)
  · have hdead := h.endForDeadLog hn
    exact (Beside.enterFence _ (by decide) _).opFits ((EpochStep.endForDeadLog s).fits hf) hdead
  · exact h.failOpen_ended hf (.inl hp) hn _
  · have hm := h.marks
    rw [hp] at hm hop
    have hoc : (s.reserve .marker s.oc.depth s.oc.innermost).oc = s.oc := s.reserve_frame _ _ _ .oc (by decide)
    have hre : (s.reserve .marker s.oc.depth s.oc.innermost).re = s.re := s.reserve_frame _ _ _ .re (by decide)
    have hport : (s.reserve .marker s.oc.depth s.oc.innermost).dp.port = s.dp.port :=
      s.reserve_frame _ _ _ .port (by decide)
    have hset : ((s.reserve .marker s.oc.depth s.oc.innermost).setLevel s.oc.depth
        fun l => { l with start := some s.lc.head }).oc.stack.map Level.durable = s.oc.stack.map Level.durable := by
      rw [State.setLevel_oc, hoc]
      dsimp only
      split
      · rfl
      · exact Beside.map_modify_of_eq (f := fun l : Level => { l with start := some s.lc.head }) (fun _ => rfl) _ _
    refine markerAsked (s := s) (k := s.oc.depth) (w := s.oc.innermost) hn rfl rfl hport nofun ?_ ?_ ?_ (.inl ⟨rfl, ?_⟩)
    · exact hop.trans (congrArg (fun c : Controller => some c.op) hoc).symm
    · exact hset ▸ hm
    · exact (congrArg RestoreEngine.stage hre).trans hst
    · have hlen := congrArg List.length hset
      rw [List.length_map, List.length_map] at hlen
      exact hlen.symm

theorem commitWaitEnds {t : State} (h : s.opFits) (hf : s.epochsFit) (ht : s.commitWaitEnds = some t) : t.opFits := by
  obtain ⟨hp, -, rfl⟩ := State.commitWaitEnds_cases ht
  obtain ⟨hn, hst, hop⟩ := h.waiting hf (.inr (.inl hp))
  have hm := h.marks
  rw [hp] at hm hop
  refine .phasedTo nofun hop hm hst (.inr ⟨.commit, ?_, rfl⟩) (.inl ((State.markersDue_congr rfl).trans hn.markers))
  exact State.anchorsDue_queued (s := s) (w := .anchor .commit) rfl rfl hn.anchors

theorem rotateWaitEnds {t : State} (h : s.opFits) (hf : s.epochsFit) (ht : s.rotateWaitEnds = some t) : t.opFits := by
  obtain ⟨hp, -, x, -, ⟨-, rfl⟩ | ⟨-, rfl⟩⟩ := State.rotateWaitEnds_cases ht
  all_goals
    obtain ⟨hn, hst, hop⟩ := h.waiting hf (.inr (.inr hp))
    have hm := h.marks
    rw [hp] at hm hop
  · have hoc : (s.setBar.reserve .marker 1 x.serial).oc = s.setBar.oc := s.setBar.reserve_frame _ _ _ .oc (by decide)
    have hre : (s.setBar.reserve .marker 1 x.serial).re = s.re := s.setBar.reserve_frame _ _ _ .re (by decide)
    have hport : (s.setBar.reserve .marker 1 x.serial).dp.port = s.dp.port :=
      s.setBar.reserve_frame _ _ _ .port (by decide)
    have hn' : s.setBar.asksNothing := hn.congr rfl rfl rfl
    refine markerAsked (s := s.setBar) (k := 1) (w := x.serial) hn' rfl rfl hport nofun ?_ ?_ ?_ (.inr (.inl rfl))
    · exact hop.trans (congrArg (fun c : Controller => some c.op) hoc).symm
    · have hstack : (s.setBar.reserve .marker 1 x.serial).oc.stack = s.oc.stack := (congrArg Controller.stack hoc :)
      exact hstack ▸ hm
    · exact (congrArg RestoreEngine.stage hre).trans hst
  · refine .phasedTo nofun hop hm hst (.inr ⟨.rotateFirst, ?_, rfl⟩) (.inl ((State.markersDue_congr rfl).trans hn.markers))
    exact State.anchorsDue_queued (s := s) (w := .anchor .rotateFirst) rfl rfl hn.anchors

/-! ## Markers (R42, R51, R56, R57) -/

section
variable (h : s.opFits) (hf : s.epochsFit)
include h hf

/-- While a marker is asked for no anchor is awaited. -/
theorem anchorsDue_marker (hp : s.oc.phase.asksMarker) : s.anchorsDue = [] := by
  have hne : s.oc.phase ≠ .none := fun hn => by rw [hn] at hp; exact hp
  have hst := (h.phased hf hne).2
  refine h.anchorsDue_nil hf fun o ho => ?_
  cases o
  case attachKeep | formatA | formatB | recovery => cases ho
  case rollback | discard => exact fun ho => Stage.noConfusion (hst.symm.trans ho.2)
  all_goals rcases OpPhase.asksMarker_cases hp with hp | hp | ⟨origin, hp⟩ <;> simp [AnchorOccasion.awaited, hp]

/-- The marker asked for is durable. -/
theorem markerDurable (hm : s.markersDue = []) {e : Reservation}
    (hasked : s.oc.phase = .openMarker ∧ e.level = s.oc.stack.length ∨ s.oc.phase = .rotateMarker
      ∨ ∃ origin, s.oc.phase = .rotateLateMarker origin) : (s.markerDurable e).opFits := by
  have hmarks := h.marks
  obtain ⟨hp, hk⟩ | hp | ⟨origin, hp⟩ := hasked
  all_goals
    have hn : s.asksNothing := ⟨h.anchorsDue_marker hf (by rw [hp]; trivial), hm⟩
    obtain ⟨hop, hst⟩ := h.phased hf (by rw [hp]; exact nofun)
    rw [hp] at hmarks hop
  · obtain ⟨base, hmap, hbase⟩ := hmarks
    obtain ⟨ls, ms, hstack, hls, hms⟩ := List.map_eq_append_iff.mp hmap
    obtain ⟨l, rest, rfl, -, hrest⟩ := List.map_eq_cons_iff.mp hms
    obtain rfl := List.map_eq_nil_iff.mp hrest
    have hlevel : e.level = ls.length + 1 := by rw [hk, hstack, List.length_append]; rfl
    rw [State.markerDurable_openMarker hp, State.openMarkerDurable_eq e (by omega)]
    refine .ended rfl rfl hst (fun x hx => ?_) (hn.congr rfl rfl rfl)
    have hx : x ∈ s.oc.stack.modify (e.level - 1) fun l => { l with durable := true } := hx
    rw [hstack, hlevel, Nat.add_sub_cancel, List.modify_at_length] at hx
    rcases List.mem_append.mp hx with hx | hx
    · exact hbase _ (hls ▸ List.mem_map_of_mem hx)
    · rw [List.mem_singleton.mp hx]
  · rw [State.markerDurable_rotateMarker hp]
    refine .phasedTo nofun hop hmarks hst (.inr ⟨.rotateMarker e.slot e.sequence, ?_, rfl⟩)
      (.inl ((State.markersDue_congr rfl).trans hm))
    exact State.anchorsDue_queued (s := s) (w := .anchor (.rotateMarker e.slot e.sequence)) rfl rfl hn.anchors
  · obtain ⟨l, hstack, -⟩ := List.map_eq_singleton_iff.mp hmarks
    rw [State.markerDurable_lateMarker hp, State.lateMarkerDurable_eq]
    refine .ended rfl rfl hst (fun x hx => ?_) (hn.congr rfl rfl rfl)
    have hx : x ∈ s.oc.stack.modify 0 fun l => { l with durable := true } := hx
    rw [hstack] at hx
    rw [List.mem_singleton.mp hx]

/-- The marker asked for failed. -/
theorem markerFailed (hm : s.markersDue = []) {e : Reservation}
    (hasked : s.oc.phase = .openMarker ∧ e.level = s.oc.stack.length ∨ s.oc.phase = .rotateMarker
      ∨ ∃ origin, s.oc.phase = .rotateLateMarker origin) (c : Condition) : (s.markerFailed c).opFits := by
  have hmarks := h.marks
  obtain ⟨hp, -⟩ | hp | ⟨origin, hp⟩ := hasked
  all_goals
    have hn : s.asksNothing := ⟨h.anchorsDue_marker hf (by rw [hp]; trivial), hm⟩
    obtain ⟨hop, hst⟩ := h.phased hf (by rw [hp]; exact nofun)
    rw [hp] at hmarks hop
    simp only [State.markerFailed, hp]
  · unfold State.openMarkerFailed
    dsimp only
    split
    · rename_i hempty
      obtain ⟨-, hop', -, hre, hlc, hport⟩ := s.failOpen_parts c
      have hnil : (s.failOpen c).oc.stack = [] := List.isEmpty_iff.mp hempty
      refine .phasedTo nofun (hop.trans (congrArg some hop').symm) ?_ ((congrArg RestoreEngine.stage hre).trans hst)
        (.inr ⟨.openReclaim, ?_, ⟨_, rfl⟩⟩) (.inl ((State.markersDue_congr ?_).trans hm))
      · have hall : ∀ b ∈ (s.failOpen c).oc.stack.map Level.durable, b = true := by
          rw [hnil]
          exact nofun
        exact hall
      · exact State.anchorsDue_queued (s := s) (w := .anchor .openReclaim) hport
          (congrArg (fun lc : LogState => lc.writes ++ [.anchor .openReclaim]) hlc) hn.anchors
      · exact (congrArg LogState.reservations hlc :)
    · exact h.failOpen_ended hf (.inr hp) hn c
  · have hd : ∀ l ∈ s.oc.stack, l.durable = true := h.durable_at hp fun _ => id
    unfold State.abandonRotation
    split
    · exact .endOperation hst hd hn
    · exact .ended rfl rfl hst hd (hn.congr rfl rfl rfl)
  · obtain ⟨l, hstack, -⟩ := List.map_eq_singleton_iff.mp hmarks
    rw [State.lateMarkerFailed_eq hstack]
    refine .phasedTo nofun hop nofun hst (.inr ⟨.rotateReclaim, ?_, rfl⟩)
      (.inl ((State.markersDue_congr rfl).trans hm))
    exact State.anchorsDue_queued (s := s) (w := .anchor .rotateReclaim) rfl rfl hn.anchors

end

/-- One entry of the reservations is passed (R29). -/
theorem passEntry {e : Reservation} {rest : List Reservation} (h : s.opFits)
    (hr : s.lc.reservations = e :: rest) (n : Nat)
    (hf' : ({ s with lc := { s.lc with reservations := rest, durable := n } } : State).epochsFit) :
    (({ s with lc := { s.lc with reservations := rest, durable := n } } : State).passEntry e).opFits := by
  obtain ⟨u, hu⟩ : ∃ u : State, u = { s with lc := { s.lc with reservations := rest, durable := n } } := ⟨_, rfl⟩
  rw [← hu] at hf' ⊢
  have hoc : u.oc = s.oc := by rw [hu]
  have hre : u.re = s.re := by rw [hu]
  have hanchors : u.anchorsDue = s.anchorsDue := State.anchorsDue_congr (by rw [hu]) (by rw [hu])
  have hsub : u.markersDue.Sublist s.markersDue := by
    unfold State.markersDue
    rw [hr, hu]
    exact (List.sublist_cons_self ..).filter _
  have hfits : u.opFits := by
    refine ⟨?_, ?_, ?_, ?_, ?_, ?_, fun o ho => ?_, ?_, fun r hmem => ?_⟩
    · rw [hoc]; exact h.phase
    · rw [hoc]; exact h.marks
    · rw [hoc, hre]; exact h.replays
    · rw [hoc, hre]; exact h.anchoring
    · rw [hoc, hre]; exact h.halted
    · rw [hanchors]; exact h.fewAnchors
    · exact (AnchorOccasion.awaited_congr (by rw [hoc]) (by rw [hoc]) (by rw [hre]) o).mpr (h.awaited o (hanchors ▸ ho))
    · exact Nat.le_trans hsub.length_le h.fewMarkers
    · rw [hoc]; exact h.asked r (hsub.subset hmem)
  have hslot := Beside.slotDurable u e.slot
  have hslotFits := hslot.opFits hf' hfits
  have hslotEpochs := hslot.fits hf'
  have hslotMarkers : (u.slotDurable e.slot).markersDue = u.markersDue := State.markersDue_congr rfl
  have hpassed (hp : e.purpose = .marker) : (u.slotDurable e.slot).markersDue = []
      ∧ ((u.slotDurable e.slot).oc.phase = .openMarker ∧ e.level = (u.slotDurable e.slot).oc.stack.length
        ∨ (u.slotDurable e.slot).oc.phase = .rotateMarker
        ∨ ∃ origin, (u.slotDurable e.slot).oc.phase = .rotateLateMarker origin) := by
    have hdue : s.markersDue = e :: u.markersDue := by
      unfold State.markersDue
      rw [hr, hu, List.filter_cons_of_pos (by simp [hp])]
    refine ⟨?_, ?_⟩
    · have hlen := h.fewMarkers
      rw [hdue, List.length_cons] at hlen
      rw [hslotMarkers]
      exact List.eq_nil_of_length_eq_zero (by omega)
    · have hasked := h.asked e (by rw [hdue]; exact List.mem_cons_self ..)
      rw [← hoc] at hasked
      exact hasked
  cases hp : e.purpose
  case capture =>
    by_cases hfail : e.failure = none
    · rw [State.passEntry_capture hp hfail]
      exact (Beside.countCapture _ _).opFits hslotEpochs hslotFits
    · rw [State.passEntry_voided hp hfail]
      exact hslotFits
  case marker =>
    obtain ⟨hnone, hasked⟩ := hpassed hp
    cases hfail : e.failure with
    | none =>
      rw [State.passEntry_marker hp hfail]
      exact hslotFits.markerDurable hslotEpochs hnone hasked
    | some f =>
      rw [State.passEntry_failed hp hfail]
      exact hslotFits.markerFailed hslotEpochs hnone hasked _

theorem advanceOver (ls : List Reservation) : ∀ s : State, s.opFits → s.epochsFit → s.lc.reservations = ls →
    (advanceOver ls s).opFits := by
  induction ls with
  | nil => exact fun _ h _ _ => h
  | cons e rest ih =>
    intro s h hf hr
    unfold Machine.advanceOver
    split
    · have hmark : ({ s with lc := { s.lc with reservations := rest, durable := s.lc.durable + 1 } } : State).epochsFit :=
        ⟨hf.active, hf.attach, hf.fence, hf.slots, hf.heldLog, hf.notScanning, hf.purpose, hf.rolling, hf.writes, hf.port,
          hf.attachRead⟩
      refine ih _ (h.passEntry hr _ hmark) ((EpochStep.passEntry _ e).fits hmark) ?_
      rw [State.passEntry_reservations]
    · exact h

theorem advanceMark (h : s.opFits) (hf : s.epochsFit) : s.advanceMark.opFits := advanceOver _ s h hf rfl

end State.opFits

end Sys2Proof.Machine

/-! SUPPORT. The rollbacks, the ends of anchors, the dead log and the operation in progress. -/

namespace Sys2Proof.Machine

/-! ## Further steps beside the operation -/

namespace Beside

/-- The restore engine changes, but for its stage and its purpose. -/
theorem restore_kept {s t : State} (h : ({ t with re := s.re } : State).core = s.core) (hst : t.re.stage = s.re.stage)
    (hp : t.re.purpose = s.re.purpose) : Beside s t := by
  have hsame : Beside s { t with re := s.re } := same h
  refine hsame.trans ⟨EpochStep.restore rfl ?_ ?_ ?_, fun hf ho => ?_⟩
  · exact fun hf => hst ▸ hf.notScanning
  · exact fun hf => by rw [hst, hp]; exact hf.purpose
  · exact fun hf => by rw [hst]; exact hf.rolling
  · exact State.operationFits_congr ho rfl rfl hst id rfl (List.Sublist.refl _) ⟨id, fun _ => rfl, (List.map_id _).symm⟩

/-- A freeze is left (R127, R170). -/
theorem toOnline (s : State) : Beside s { s with oc := { s.oc with mode := .online, fence := .none } } := by
  refine ⟨⟨fun hf => ?_, fun _ ho => ho, fun _ hr => hr⟩, fun hf ho => ?_⟩
  · obtain ⟨-, h2, -, h4, h5, h6, h7, h8, h9, h10, h11⟩ := hf
    exact ⟨rfl, h2, ⟨fun _ h => (by cases h), fun _ => rfl⟩, h4, h5, h6, h7, h8, h9, h10, h11⟩
  · exact State.operationFits_congr ho rfl rfl rfl (fun _ => hf.active) rfl (List.Sublist.refl _)
      ⟨id, fun _ => rfl, (List.map_id _).symm⟩

theorem thaw {s t : State} (h : s.thaw.leaves t) : Beside s t := by
  obtain ⟨-, -, ht⟩ := State.thaw_cases h
  rcases ht with rfl | rfl
  · exact toOnline s
  · exact (toOnline s).trans (same rfl)

theorem copyFailed (s : State) (name : CopyName) : Beside s (s.copyFailed name) := by
  have hlc := State.copyFailed_lc (s := s) name
  refine ⟨EpochStep.copyFailed s name, fun hf ho => ?_⟩
  refine State.operationFits_congr ho rfl rfl rfl id rfl ?_ ⟨id, fun _ => rfl, ?_⟩
  · rw [State.anchorsDue_congr (s := s) (t := s.copyFailed name) rfl (by rw [hlc, LogState.setCopy_writes])]
  · rw [List.map_id]
    exact State.markersDue_congr (by rw [hlc, LogState.setCopy_reservations])

theorem armed (s : State) (b : Bool) : Beside s { s with lc := { s.lc with armed := b } } :=
  ⟨EpochStep.log rfl (fun _ _ hw => .inl hw) rfl rfl fun _ hr => hr, fun _ ho =>
    State.operationFits_congr ho rfl rfl rfl id rfl (List.Sublist.refl _) ⟨id, fun _ => rfl, (List.map_id _).symm⟩⟩

/-- The request at the port is one for no anchor, or for one that was queued before it. -/
theorem present {s t : State} (h : EpochStep s t) (hoc : t.oc = s.oc) (hre : t.re = s.re)
    (hr : t.lc.reservations = s.lc.reservations) (ha : t.anchorsDue = s.anchorsDue) : Beside s t := by
  refine ⟨h, fun _ ho => ?_⟩
  refine State.operationFits_congr ho (by rw [hoc]) (by rw [hoc]) (by rw [hre]) (fun h => by rwa [hoc] at h)
    (by rw [hoc]) (by rw [ha]) ⟨id, fun _ => rfl, ?_⟩
  rw [List.map_id]
  exact State.markersDue_congr hr

theorem grant {s t : State} {first : Requester} (h : s.grant first = some t) : Beside s t := by
  have hstep := EpochStep.grant h
  obtain ⟨hport, n, ⟨w, rest, q, -, hw, rfl⟩ | ⟨o, q, -, -, hr, rfl⟩ | ⟨q, -, rfl⟩ | ⟨i, part, q, -, rfl⟩ |
    ⟨e, q, rfl⟩ | ⟨q, rfl⟩⟩ := State.grant_cases h
  · refine present hstep rfl rfl rfl ?_
    rw [State.anchorsDue_eq, State.anchorsDue_eq, hport, hw]
    cases w <;> rfl
  · refine present hstep rfl rfl rfl ?_
    rw [State.anchorsDue_eq, State.anchorsDue_eq, hport]
    cases hread : s.lc.attachRead <;> rw [hread] at hr <;> cases hr <;> rfl
  all_goals
    refine present hstep rfl rfl rfl ?_
    rw [State.anchorsDue_eq, State.anchorsDue_eq, hport]
    rfl

theorem reissue {s t : State} {f : MemFailure} (h : s.reissue f = some t) : Beside s t := by
  have hstep := EpochStep.reissue h
  obtain ⟨a, ha, rfl⟩ := State.reissue_cases h
  refine present hstep rfl rfl rfl ?_
  rw [State.anchorsDue_eq, State.anchorsDue_eq, ha]
  rfl

theorem removed (s : State) (n : Nat) : Beside s { s.portFreed with hq := s.hq.remove n } :=
  (portFreed s).trans (entries_kept (t := { s.portFreed with hq := s.hq.remove n }) rfl (List.filter_subset_self _))

end Beside

/-! ## Rollbacks (R119 to R132) -/

theorem State.opRestoring.congr {s t : State} (h : s.opRestoring) (hp : t.oc.phase = s.oc.phase)
    (hs : ∀ l ∈ t.oc.stack, ∃ m ∈ s.oc.stack, m.durable = l.durable) (hport : t.dp.port = s.dp.port)
    (hlc : t.lc = s.lc) : t.opRestoring := by
  refine ⟨h.toasksNothing.congr hport (by rw [hlc]) (by rw [hlc]), hp.trans h.phase, fun l hl => ?_⟩
  obtain ⟨m, hm, hd⟩ := hs l hl
  exact hd ▸ h.durable m hm

theorem State.popLevel_parts (s : State) :
    s.popLevel.oc.stack = s.oc.stack.dropLast ∧ s.popLevel.oc.op = s.oc.op ∧ s.popLevel.oc.phase = s.oc.phase
      ∧ s.popLevel.re = s.re ∧ s.popLevel.lc = s.lc ∧ s.popLevel.dp.port = s.dp.port := by
  unfold State.popLevel State.stopTimerIfEmpty
  split <;> exact ⟨rfl, rfl, rfl, rfl, rfl, rfl⟩

theorem State.opRestoring.popLevel {s : State} (h : s.opRestoring) : s.popLevel.opRestoring := by
  obtain ⟨hstack, -, hphase, -, hlc, hport⟩ := s.popLevel_parts
  refine h.congr hphase (fun l hl => ?_) hport hlc
  rw [hstack] at hl
  exact ⟨l, List.mem_of_mem_dropLast hl, rfl⟩

theorem State.opRestoring.popLevels (n : Nat) : ∀ {s : State}, s.opRestoring →
    (s.popLevels n).opRestoring ∧ (s.popLevels n).oc.op = s.oc.op := by
  induction n with
  | zero => exact fun h => ⟨h, rfl⟩
  | succ n ih =>
    intro s h
    obtain ⟨hr, hop⟩ := ih h.popLevel
    exact ⟨hr, hop.trans s.popLevel_parts.2.1⟩

theorem State.opRestoring.discardLevels {s : State} (h : s.opRestoring) :
    s.discardLevels.opRestoring ∧ s.discardLevels.oc.op = s.oc.op := by
  obtain ⟨hr, hop⟩ := h.popLevels s.discardPops
  unfold State.discardLevels
  rw [State.breakAll_eq]
  refine ⟨hr.congr rfl (fun l hl => ?_) rfl rfl, hop⟩
  obtain ⟨m, hm, rfl⟩ := List.mem_map.mp hl
  exact ⟨m, hm, rfl⟩

namespace State.opFits

variable {s t : State}

section
variable (h : s.opRestoring)
include h

theorem haltRollback (c : Condition) (n : Nat) : (s.haltRollback c n).opFits := by
  refine .unphased h.phase ?_ h.durable ?_ nofun (fun _ => .inl rfl) (h.toasksNothing.congr rfl rfl rfl)
  · exact of_decide_eq_true rfl
  · exact fun hs => by rcases hs with hs | hs <;> cases hs

/-- The restore engine goes on replaying. -/
theorem replaying (hop : s.oc.op = .rolling) (hst : s.re.stage = .replaying) : s.opFits := by
  refine .unphased h.phase (by rw [hop]; decide) h.durable (fun _ => hop) (by rw [hst]; decide) ?_ h.toasksNothing
  rw [hst]
  exact nofun

theorem slotDone (hop : s.oc.op = .rolling) (hst : s.re.stage = .replaying) : s.slotDone.opFits := by
  unfold State.slotDone
  dsimp only
  split
  · exact haltRollback h _ _
  · exact replaying (h.congr rfl (fun l hl => ⟨l, hl, rfl⟩) rfl rfl) hop hst

theorem rolledBack : s.rolledBack.opFits := by
  rw [State.rolledBack_eq]
  exact .ended rfl rfl rfl h.durable (h.toasksNothing.congr rfl rfl rfl)

theorem replayEnds (hop : s.oc.op = .rolling) : s.replayEnds.opFits := by
  unfold State.replayEnds
  dsimp only
  split
  · refine .restoreAnchored (o := .rollback) h.phase (.inl hop) h.durable rfl ?_ ⟨hop, rfl⟩
      ((State.markersDue_congr rfl).trans h.markers)
    exact State.anchorsDue_queued (s := s) (w := .anchor .rollback) rfl rfl h.anchors
  · exact rolledBack (h.congr rfl (fun l hl => ⟨l, hl, rfl⟩) rfl rfl)

theorem haltSlot (c : Condition) : (s.haltSlot c).opFits :=
  haltRollback (s := { s with re := { s.re with abortRequested := false } })
    (h.congr rfl (fun l hl => ⟨l, hl, rfl⟩) rfl rfl) c _

theorem replayRecord (hop : s.oc.op = .rolling) (hst : s.re.stage = .replaying) (header payload : BlockData) :
    (s.replayRecord header payload).opFits := by
  obtain ⟨-, hpop, -, hpre, -⟩ := s.popLevel_parts
  unfold State.replayRecord
  split
  · exact haltSlot h _
  · split
    · split
      · exact replaying (h.congr rfl (fun l hl => ⟨l, hl, rfl⟩) rfl rfl) hop hst
      · unfold State.replayOpen
        split
        · dsimp only
          split
          · exact replayEnds h.popLevel (hpop.trans hop)
          · exact slotDone h.popLevel (hpop.trans hop) ((congrArg RestoreEngine.stage hpre).trans hst)
        · exact slotDone h hop hst
      · exact slotDone h hop hst
    · exact haltSlot h _

end

section
variable (h : s.opFits) (hf : s.epochsFit)
include h hf

/-- What stands when the replay's request ends. -/
theorem replay_freed (hst : s.re.stage = .replaying) : s.portFreed.opRestoring ∧ s.oc.op = .rolling := by
  have hop := h.replays (.inr hst)
  have hr := h.restoring hf (.inl hop) (by rw [hst]; decide)
  refine ⟨⟨⟨?_, hr.markers⟩, hr.phase, hr.durable⟩, hop⟩
  have hnil := hr.anchors
  rw [State.anchorsDue_eq] at hnil ⊢
  exact (List.append_eq_nil_iff.mp hnil).2

theorem replayRead {r : MemReply} (ht : s.replayRead r = some t) : t.opFits := by
  obtain ⟨hst, -, -, hcase⟩ := State.replayRead_cases ht
  obtain ⟨hr, hop⟩ := h.replay_freed hf hst
  obtain ⟨d, rfl⟩ | ⟨d, p, rfl⟩ | ⟨c, rfl⟩ := hcase
  · exact replaying (hr.congr rfl (fun l hl => ⟨l, hl, rfl⟩) rfl rfl) hop hst
  · exact replayRecord hr hop hst _ _
  · exact haltSlot hr _

theorem restoreEnds {r : MemReply} (ht : s.restoreEnds r = some t) : t.opFits := by
  obtain ⟨hst, -, -, hcase⟩ := State.restoreEnds_cases ht
  obtain ⟨hr, hop⟩ := h.replay_freed hf hst
  obtain rfl | ⟨c, rfl⟩ := hcase
  · refine slotDone (hr.congr rfl (fun l hl => ⟨l, hl, rfl⟩) rfl rfl) ?_ ?_
    · exact hop
    · exact hst
  · exact haltSlot hr _

theorem settle (ht : s.settle = some t) : t.opFits := by
  obtain ⟨hst, -, hcase⟩ := State.settle_cases ht
  have hop := h.replays (.inl hst)
  have hr := h.restoring hf (.inl hop) (by rw [hst]; decide)
  obtain ⟨c, n, rfl⟩ | rfl := hcase
  · exact haltRollback hr c n
  · exact replaying (hr.congr rfl (fun l hl => ⟨l, hl, rfl⟩) rfl rfl) hop rfl

theorem resume (ht : s.resume.leaves t) : t.opFits := by
  obtain ⟨hst, ⟨hh, -⟩ | ⟨-, hop, rfl⟩⟩ := State.resume_cases ht
  · obtain ⟨-, -, -, hrec⟩ := Controller.mode_of_active hf.active
    simp [State.recoveryHalted, hrec] at hh
  · have hr := h.restoring hf (.inr hop) hst
    exact replaying (hr.congr rfl (fun l hl => ⟨l, hl, rfl⟩) rfl rfl) rfl rfl

theorem discard (ht : s.discard.leaves t) : t.opFits := by
  obtain ⟨hop, hst, hcase⟩ := State.discard_cases ht
  obtain ⟨hr, hop'⟩ := (h.restoring hf (.inr hop) hst).discardLevels
  have hhalted := hop'.trans hop
  obtain ⟨-, rfl⟩ | ⟨-, rfl⟩ := hcase
  · refine .restoreAnchored (o := .discard) hr.phase (.inr hhalted) hr.durable rfl ?_ ⟨hhalted, rfl⟩
      ((State.markersDue_congr rfl).trans hr.markers)
    exact State.anchorsDue_queued (s := s.discardLevels) (w := .anchor .discard) rfl rfl hr.anchors
  · exact .ended rfl rfl rfl hr.durable (hr.toasksNothing.congr rfl rfl rfl)

/-- The acceptance of a detach at IDLE or over a halted rollback (R150). -/
theorem detach (ht : s.detach.leaves t) : t.opFits := by
  obtain ⟨hno, rfl⟩ := State.detach_cases ht
  have hm := Controller.active_iff.mp hf.active
  have hcase : s.oc.op = .idle ∨ s.oc.op = .halted ∧ s.re.stage = .halted := by
    by_contra hn
    rw [not_or] at hn
    rw [State.detachRefusal_at_work hm hn.1 hn.2] at hno
    cases hno
  have hparts : s.oc.phase = .none ∧ s.asksNothing ∧ (∀ l ∈ s.oc.stack, l.durable = true)
      ∧ (s.re.stage = .idle ∨ s.re.stage = .halted) := by
    rcases hcase with hop | ⟨hop, hst⟩
    · have hi := h.idle hf hop
      exact ⟨hi.phase, hi.toasksNothing, hi.durable, .inl hi.stage⟩
    · have hr := h.restoring hf (.inr hop) (by rw [hst]; decide)
      exact ⟨hr.phase, hr.toasksNothing, hr.durable, .inr hst⟩
  obtain ⟨hphase, hn, hd, hst⟩ := hparts
  rw [State.beginDetach_eq (if_pos hm)]
  refine .unphased hphase ?_ hd ?_ ?_ (fun _ => .inr rfl) ⟨?_, (State.markersDue_congr rfl).trans hn.markers⟩
  · exact of_decide_eq_true rfl
  · rcases hst with hst | hst <;> exact fun hs => by rcases hs with hs | hs <;> exact Stage.noConfusion (hst.symm.trans hs)
  · rcases hst with hst | hst <;> exact fun hs => Stage.noConfusion (hst.symm.trans hs)
  · have hnil := hn.anchors
    rw [State.anchorsDue_eq] at hnil ⊢
    exact List.append_eq_nil_iff.mpr ⟨(List.append_eq_nil_iff.mp hnil).1, rfl⟩

end

/-! ## The dead log (R39) -/

theorem declareDead (h : s.opFits) (hp : s.dp.port = none) (f : MemFailure) :
    (s.declareDead f).opFits := by
  obtain ⟨⟨hlc, -, hdp, hre, -⟩, ⟨-, -, hop, hphase, -⟩, -⟩ := s.declareDead_leaves f
  refine .ended hphase hop (by rw [hre]) ?_ ⟨?_, ?_⟩
  · rw [(s.declareDead_stack f).1]
    exact h.deathStack_durable
  · rw [State.anchorsDue_eq, hdp, hlc, hp]
    rfl
  · unfold State.markersDue
    rw [hlc]
    rfl

/-! ## The ends of anchors (R36) -/

/-- The anchor in flight is the one awaited, and no other is due. -/
theorem anchorEnded (h : s.opFits) {job : AnchorJob} {r : MemReply} (he : s.endsWith (.lcAnchor job) r) :
    job.occasion.awaited s ∧ s.lc.writes.filterMap LogWrite.occasion = [] := by
  obtain ⟨a, ha, ho, -⟩ := he
  have hdue : s.anchorsDue = job.occasion :: s.lc.writes.filterMap LogWrite.occasion := by
    rw [State.anchorsDue_eq, ha]
    simp [ho, Owner.occasion]
  have hlen := h.fewAnchors
  rw [hdue, List.length_cons] at hlen
  exact ⟨h.awaited _ (by rw [hdue]; exact List.mem_cons_self ..), List.eq_nil_of_length_eq_zero (by omega)⟩

/-- The requester's end of an anchor it awaited, on a state with nothing due. -/
theorem anchorDone {o : AnchorOccasion} (h : s.opFits) (hf : s.epochsFit) (ho : o.fits .onlineAtReset = true)
    (ha : o.awaited s) (hn : s.asksNothing) : (s.anchorDone o).opFits := by
  have hphased (p : OpPhase) (hp : s.oc.phase = p) (hne : p ≠ .none) := h.phased hf (by rw [hp]; exact hne)
  cases o
  case attachKeep | formatA | formatB | recovery => cases ho
  case commit =>
    obtain ⟨-, hst⟩ := hphased _ ha nofun
    have hd := h.durable_at ha fun _ => id
    simp only [State.anchorDone, State.committed]
    split
    · exact .endOperation hst hd hn
    · exact .ended rfl rfl hst nofun (hn.congr rfl rfl rfl)
  case openReclaim =>
    obtain ⟨serial, hp⟩ := ha
    exact .endOperation (hphased _ hp nofun).2 (h.durable_at hp fun _ => id) hn
  case rotateReclaim => exact .endOperation (hphased _ ha nofun).2 (h.durable_at ha fun _ => id) hn
  case rotateMarker slot w =>
    obtain ⟨-, hst⟩ := hphased _ ha nofun
    have hd := h.durable_at ha fun _ => id
    simp only [State.anchorDone, State.rotated]
    split
    · exact .endOperation hst hd hn
    · refine .ended rfl rfl hst (fun l hl => ?_) (hn.congr rfl rfl rfl)
      rw [List.mem_singleton.mp hl]
      rfl
  case rotateFirst =>
    obtain ⟨hop, hst⟩ := hphased _ ha nofun
    have hd := h.durable_at ha fun _ => id
    simp only [State.anchorDone]
    cases hx : s.oc.successor with
    | none =>
      unfold State.rotatedFirst
      rw [hx]
      exact .endOperation hst hd hn
    | some x =>
      have hoc := (State.rotatedFirst_parts hx).1
      have hre : s.rotatedFirst.re = s.re ∧ s.rotatedFirst.dp.port = s.dp.port := by
        simp only [State.rotatedFirst, hx]
        rw [State.reserve_eq]
        exact ⟨rfl, rfl⟩
      rw [ha] at hop
      refine markerAsked (s := s.replaceLevelOne x.serial none) (k := 1) (w := x.serial) (slot := s.lc.head)
        (hn.congr rfl rfl rfl) ?_ ?_ hre.2 ?_ ?_ ?_ ?_ (.inr (.inr ⟨x.origin, ?_⟩))
      · simp only [State.rotatedFirst, hx]
        rfl
      · simp only [State.rotatedFirst, hx]
        rfl
      · rw [hoc]; exact nofun
      · rw [hoc]; exact hop
      · rw [hoc]; rfl
      · rw [hre.1]; exact hst
      · rw [hoc]
  case rollback =>
    have hp := h.phase_none (by rw [ha.1]; decide)
    exact rolledBack ⟨hn, hp, h.durable_of hp⟩
  case discard =>
    have hp := h.phase_none (by rw [ha.1]; decide)
    exact .ended rfl rfl rfl (h.durable_of hp) (hn.congr rfl rfl rfl)

end State.opFits

end Sys2Proof.Machine

/-! SUPPORT. Every command and the operation in progress; the epoch stack. -/

namespace Sys2Proof.Machine

namespace State.opFits

variable {s t : State}

/-- Of the core nothing changes. -/
theorem same (h : s.opFits) (hf : s.epochsFit) (ht : t.core = s.core) : t.opFits := (Beside.same ht).opFits hf h

/-! ## Faults (R164 to R168) -/

theorem faultRollback (h : s.opFits) (hf : s.epochsFit) (hop : s.oc.op = .idle) (j : Nat) : (s.faultRollback j).opFits := by
  unfold State.faultRollback
  split
  · exact ((Beside.raise s _ _ _ _ _).trans (Beside.enterFence _ (by decide) _)).opFits hf h
  · have ha := acceptRollback (h.idle hf hop) j .fault
    exact (Beside.raise _ _ _ _ _ _).opFits ((EpochStep.acceptRollback s j .fault).fits hf) ha

theorem actOnFault (h : s.opFits) (hf : s.epochsFit) (hop : s.oc.op = .idle) : s.actOnFault.opFits := by
  unfold State.actOnFault
  split
  · exact h
  · exact ((Beside.raise s _ _ _ _ _).trans (Beside.enterFence _ (by decide) _)).opFits hf h
  · split
    · exact (Beside.raise s _ _ _ _ _).opFits hf h
    · exact h.faultRollback hf hop _
  · split
    · exact (Beside.raise s _ _ _ _ _).opFits hf h
    · exact h.faultRollback hf hop _

theorem takeAssertion (h : s.opFits) (hf : s.epochsFit) : s.takeAssertion.opFits := by
  unfold State.takeAssertion
  split
  · exact (Beside.raise s _ _ _ _ _).opFits hf h
  · split
    · exact (Beside.raise s _ _ _ _ _).opFits hf h
    · split
      · exact h.actOnFault hf (by assumption)
      · split
        · exact (Beside.raise s _ _ _ _ _).opFits hf h
        · exact h.same hf rfl

/-- A timer rotation, where it may start. -/
theorem timedRotation (h : s.opFits) (hf : s.epochsFit) (hop : s.oc.op = .idle) : s.timerRotation.opFits :=
  (timerRotation (h.idle hf hop)).elim id fun hb => hb.opFits hf h

/-! ## Anchors -/

end State.opFits

/-- An awaited anchor is not awaited where a marker is. -/
theorem AnchorOccasion.awaited_unmarked {s : State} (h : s.opFits) {o : AnchorOccasion}
    (hfit : o.fits .onlineAtReset = true) (ha : o.awaited s) : ¬s.oc.phase.asksMarker := by
  cases o
  case attachKeep | formatA | formatB | recovery => cases hfit
  case openReclaim =>
    obtain ⟨serial, hp⟩ := ha
    rw [hp]
    exact id
  case rollback | discard =>
    rw [h.phase_none (by rw [ha.1]; decide)]
    exact id
  all_goals
    rw [show s.oc.phase = _ from ha]
    exact id

theorem Beside.anchored (s : State) (job : AnchorJob) : Beside s (s.anchored job) := by
  obtain ⟨hwrites, -, -, hres⟩ := EpochStep.anchored_lc s job
  refine ⟨EpochStep.anchored s job, fun _ ho => State.operationFits_congr ho rfl rfl rfl id rfl ?_ ⟨id, fun _ => rfl, ?_⟩⟩
  · rw [State.anchorsDue_congr (s := s) (t := s.anchored job) rfl hwrites]
  · rw [List.map_id]
    exact State.markersDue_congr hres

theorem State.opFits.anchorWritten {s t : State} (h : s.opFits) (hf : s.epochsFit) (ht : s.anchorWritten = some t) :
    t.opFits := by
  obtain ⟨job, he, rfl⟩ := State.anchorWritten_cases ht
  obtain ⟨ha, hwrites⟩ := h.anchorEnded he
  obtain ⟨hw, -, -, hres⟩ := EpochStep.anchored_lc s.portFreed job
  have hfit : job.occasion.fits .onlineAtReset = true := hf.owner he
  have hbeside := (Beside.portFreed s).trans (Beside.anchored _ job)
  refine (hbeside.opFits hf h).anchorDone (hbeside.fits hf) hfit ?_ ⟨?_, ?_⟩
  · exact (AnchorOccasion.awaited_congr rfl rfl rfl _).mpr ha
  · rw [State.anchorsDue_eq, hw]
    exact hwrites
  · exact (State.markersDue_congr hres).trans (h.markersDue_nil (AnchorOccasion.awaited_unmarked h hfit ha))

/-- Every command in ONLINE and FENCED keeps one operation at a time. -/
theorem Does.opFits {c : Instr} {s t : State} (h : Does c s t) (hf : s.epochsFit) (ho : s.opFits) (hreset : c ≠ .pinReset)
    (hdetach : c ≠ .detachComplete) : t.opFits := by
  obtain ⟨hoff, hatt, hsus, hrec⟩ := Controller.mode_of_active hf.active
  have hidle (hop : s.oc.op = .idle) := ho.idle hf hop
  have hsame {u : State} (hu : u.core = s.core) : u.opFits := ho.same hf hu
  have hsameFits {u : State} (hu : u.core = s.core) : u.epochsFit := (EpochStep.same hu).fits hf
  have hthen {u v : State} (hb : Beside s u) (hv : v.core = u.core) : v.opFits := (hb.trans (.same hv)).opFits hf ho
  have hfreed := (Beside.portFreed s).opFits hf ho
  have hfreedFits := (Beside.portFreed s).fits hf
  cases c
  case pinReset => exact absurd rfl hreset
  case detachComplete => exact absurd rfl hdetach
  case resetnRelease | responseToAbandonedRequest | frameBegin | frameError | nop | status =>
    obtain rfl : t = _ := h
    exact hsame rfl
  case faultAssertion =>
    obtain ⟨-, rfl | rfl⟩ := State.assertFault_cases h
    · exact hsame rfl
    · refine State.opFits.takeAssertion (s := { s with oc := { s.oc with faultLine := true } }) (hsame rfl) ?_
      exact hsameFits rfl
  case faultDeassertion =>
    obtain rfl := State.deassertFault_cases h
    exact hsame rfl
  case faultLatchTaken =>
    obtain ⟨hop, ⟨-, rfl⟩ | ⟨-, rfl⟩⟩ := State.takeLatch_cases h
    · refine State.opFits.actOnFault (s := { s with oc := { s.oc with latch := false } }) (hsame rfl) ?_ hop
      exact hsameFits rfl
    · exact (Beside.dropLatch s).opFits hf ho
  case upstreamRequest r =>
    obtain ⟨-, rfl⟩ := State.receive_cases h
    have hreceived : Beside s { s with up := { s.up with
        state := .stalled .situation r, received := s.up.received + 1 } } := .same rfl
    exact (hreceived.trans (Beside.decideRequest _ r (by exact hoff))).opFits hf ho
  case rotationTimerExpiry =>
    obtain rfl | ⟨hm, rfl⟩ | ⟨-, rfl⟩ := State.timerExpires_cases h
    · exact hsame rfl
    · exact State.opFits.timedRotation (s := s.startTimer) (hsame rfl) ((EpochStep.startTimer s).fits hf)
        (Controller.mayRotate_iff.mp hm).2.1
    · exact hsame rfl
  case pendingRotationTaken =>
    obtain ⟨hm, rfl⟩ := State.takePendingRotation_cases h
    refine State.opFits.timedRotation (s := { s with oc := { s.oc with rotationPending := false } }) (hsame rfl) ?_
      (Controller.mayRotate_iff.mp hm).2.1
    exact hsameFits rfl
  case consideration =>
    obtain ⟨e, level, -, -, -, -, rfl⟩ := State.consider_cases h
    exact (Beside.considerAt s e level).opFits hf ho
  case downstreamGrant => exact (Beside.grant h).opFits hf ho
  case downstreamReissue => exact (Beside.reissue h).opFits hf ho
  case masterReadComplete =>
    obtain ⟨-, rfl | ⟨p, -, rfl⟩⟩ := State.readEnds_cases h
    · exact hfreed
    · exact hthen (.portFreed s) rfl
  case masterWriteComplete =>
    obtain ⟨n, -, rfl | rfl | rfl⟩ := State.writeEnds_cases h
    · exact hfreed
    · exact (Beside.removed s n).opFits hf ho
    · exact hthen (.removed s n) rfl
  case masterWriteFailed =>
    obtain ⟨n, -, rfl | ⟨e, rfl⟩ | rfl⟩ := State.writeFails_cases h
    · exact hfreed
    · exact hthen (.removed s n) rfl
    · exact hthen (.removed s n) rfl
  case captureReadComplete =>
    obtain ⟨i, -, rfl | ⟨x, -, rfl⟩⟩ := State.captureRead_cases h
    · exact hfreed
    · exact hthen (.portFreed s) rfl
  case capturePayloadWriteComplete =>
    obtain ⟨i, -, rfl | ⟨x, -, rfl⟩⟩ := State.capturePayload_cases h
    · exact hfreed
    · exact hthen (.portFreed s) rfl
  case captureHeaderWriteComplete =>
    obtain ⟨i, -, rfl | ⟨x, -, rfl⟩⟩ := State.captureHeader_cases h
    · exact hfreed
    · have hb := (Beside.portFreed s).trans ((Beside.setContext _ i { x with state := .written }).trans
        (Beside.slotWritten _ x.slot))
      exact (hb.opFits hf ho).advanceMark (hb.fits hf)
  case captureRequestFailed =>
    obtain ⟨i, part, -, rfl | ⟨x, -, -, rfl⟩⟩ := State.captureFails_cases h
    · exact hfreed
    · exact ((Beside.portFreed s).trans (Beside.captureFailed _ _ _ _)).opFits hf ho
  case markerWriteComplete =>
    obtain ⟨slot, -, rfl⟩ := State.markerWritten_cases h
    have hb := (Beside.portFreed s).trans (Beside.slotWritten _ slot)
    exact (hb.opFits hf ho).advanceMark (hb.fits hf)
  case voidWriteComplete =>
    obtain ⟨slot, -, rfl⟩ := State.voidWritten_cases h
    have hb := (Beside.portFreed s).trans (Beside.slotWritten _ slot)
    exact (hb.opFits hf ho).advanceMark (hb.fits hf)
  case markerWriteFailed =>
    obtain ⟨slot, -, ⟨-, rfl⟩ | ⟨-, rfl⟩⟩ := State.markerWriteFails_cases h
    · exact hfreed
    · exact ((Beside.portFreed s).trans (Beside.slotFailed _ _ _)).opFits hf ho
  case voidWriteFailed =>
    obtain ⟨slot, -, ⟨-, rfl⟩ | ⟨-, rfl⟩⟩ := State.voidWriteFails_cases h
    · exact hfreed
    · exact hfreed.declareDead rfl _
  case anchorWriteComplete => exact ho.anchorWritten hf h
  case anchorWriteFailed =>
    obtain ⟨job, -, ⟨-, rfl⟩ | ⟨-, hm, -⟩ | ⟨-, -, rfl⟩⟩ := State.anchorWriteFails_cases h
    · exact (Beside.copyFailed _ _).opFits hfreedFits hfreed
    · exact absurd hm hatt
    · exact ((Beside.copyFailed _ _).opFits hfreedFits hfreed).declareDead rfl _
  case anchorReadComplete =>
    obtain ⟨o, f, rfl | ⟨a, rfl⟩, he, -⟩ | ⟨d, -, he, -⟩ | ⟨a, d, -, he, -⟩ := State.anchorRead_cases h
    all_goals exact Bool.noConfusion (hf.owner he)
  case tailReadComplete =>
    obtain ⟨o, rfl | ⟨d, rfl⟩, he, -⟩ := State.tailRead_cases h
    all_goals exact Bool.noConfusion (hf.owner he)
  case replayReadComplete => exact ho.replayRead hf h
  case restoreWriteComplete => exact ho.restoreEnds hf h
  case scanReadComplete => exact absurd (State.scanRead_cases h).1 hf.notScanning
  case recoveryReadComplete =>
    obtain ⟨hst, hp, -⟩ := State.recoveryRead_cases h
    exact absurd hp (hf.purpose (by rw [hst]; decide))
  case recoveryRestoreComplete =>
    obtain ⟨hst, hp, -⟩ := State.recoveryRestoreEnds_cases h
    exact absurd hp (hf.purpose (by rw [hst]; decide))
  case attachDrainEnd =>
    obtain ⟨a, -, hm, -⟩ := State.drainEnds_cases h
    exact absurd hm hatt
  case orderingWaitEnd => exact ho.orderingEnds hf h
  case commitWaitEnd => exact ho.commitWaitEnds hf h
  case rotateWaitEnd => exact ho.rotateWaitEnds hf h
  case settlingEnd => exact ho.settle hf h
  case attachKeep | attachFormat => exact absurd (State.attach_cases h).1 hoff
  case recover => exact absurd (State.recover_cases h).1 hsus
  case detach => exact ho.detach hf h
  case openEpoch =>
    obtain ⟨-, hop, -, -, rfl⟩ := State.openEpoch_cases h
    exact State.opFits.pushLevel (hidle hop) _ _ rfl rfl
  case commit =>
    obtain ⟨-, hop, base, top, -, ⟨-, rfl⟩ | ⟨-, rfl⟩⟩ := State.commit_cases h
    · exact State.opFits.commitInner (hidle hop) hop _ _
    · exact State.opFits.startCommit (hidle hop)
  case rotate =>
    obtain ⟨-, hop, -, -, rfl⟩ := State.rotate_cases h
    exact State.opFits.startRotation (hidle hop) _ _ _ rfl rfl
  case rollback =>
    obtain ⟨-, hop, -, -, rfl⟩ := State.rollback_cases h
    exact State.opFits.acceptRollback (hidle hop) _ _
  case abort =>
    obtain ⟨-, -, rfl⟩ := State.abort_cases h
    have habort : Beside s { s with re := { s.re with abortRequested := true } } := .restore_kept rfl rfl rfl
    exact habort.opFits hf ho
  case resume => exact ho.resume hf h
  case discard => exact ho.discard hf h
  case thaw => exact (Beside.thaw h).opFits hf ho
  case setlog => exact absurd (State.setlog_cases h).1 hoff
  case setoptHighWaterMark =>
    obtain ⟨rfl, -⟩ := State.setOption_cases h
    exact hthen (.armed s true) rfl
  all_goals
    have hframe := h.frame
    refine hsame ?_
    simp only [State.core]
    rw [hframe .log (by simp [footprint]), hframe .hq (by simp [footprint]), hframe .lc (by simp [footprint]),
      hframe .re (by simp [footprint]), hframe .port (by simp [footprint]), hframe .oc (by simp [footprint])]

/-! ## Outside ONLINE and FENCED -/

theorem State.anchorsDue_length_le (s : State) :
    s.anchorsDue.length ≤ (if s.anchorInFlight then 1 else 0) + s.lc.writes.length := by
  rw [State.anchorsDue_eq, List.length_append]
  refine Nat.add_le_add ?_ (List.length_filterMap_le ..)
  unfold State.anchorInFlight
  cases hp : s.dp.port with
  | none => exact Nat.zero_le _
  | some a => cases ho : a.owner <;> simp [ho, Owner.occasion, Owner.isAnchor]

/-- An orderly part outside ONLINE and FENCED has no operation, and one anchor due at most. -/
theorem State.operationFits_outside {s : State} (hs : s.orderly) (ha : s.oc.active = false) : s.operationFits := by
  have hrest := State.atRest_of_orderly hs ha
  have hmarkers : s.markersDue = [] := by
    unfold State.markersDue
    rw [hrest.reservations]
    rfl
  have hawaited (o : AnchorOccasion) (hm : s.oc.mode = .attaching ∨ s.oc.mode = .recovering)
      (ho : o.fits s.oc = true) : o.awaited s := by
    cases o
    case attachKeep | formatA | formatB | recovery => trivial
    all_goals exact Bool.noConfusion (ha.symm.trans ho)
  have hdue (o : AnchorOccasion) (ho : o ∈ s.anchorsDue) : o.fits s.oc = true := by
    obtain ⟨-, -, hwrites, hport, -⟩ := hs
    rw [State.anchorsDue_eq] at ho
    rcases List.mem_append.mp ho with ho | ho
    · obtain ⟨a, hmem, hoc⟩ := List.mem_filterMap.mp ho
      have hfit := State.portAll_iff.mp hport a (by simpa using hmem)
      cases hown : a.owner <;> rw [hown] at hoc hfit <;> cases hoc
      exact hfit
    · obtain ⟨w, hw, hoc⟩ := List.mem_filterMap.mp ho
      have hfit := hwrites w hw
      cases w <;> cases hoc
      exact hfit
  have hanchors : s.anchorsDue.length ≤ 1 ∧ ∀ o ∈ s.anchorsDue, o.awaited s := by
    have hlen := s.anchorsDue_length_le
    rcases State.orderly_cases hs with hf | hf | hf | hf | hf
    · have hnone : s.anchorInFlight = false := State.anchorInFlight_of_lc hf.tounasked.lcInFlight
      rw [hnone, hf.writes] at hlen
      rw [List.eq_nil_of_length_eq_zero (Nat.le_zero.mp hlen)]
      exact ⟨Nat.zero_le 1, nofun⟩
    · refine ⟨Nat.le_trans hlen ?_, fun o ho => hawaited o (.inl hf.mode) (hdue o ho)⟩
      split
      · rename_i hflight
        rw [(hf.anchoring hflight).1]
        exact Nat.le_refl 1
      · have := hf.single
        omega
    · have hnone : s.anchorInFlight = false := State.anchorInFlight_of_lc hf.tounasked.lcInFlight
      rw [hnone, hf.writes] at hlen
      rw [List.eq_nil_of_length_eq_zero (Nat.le_zero.mp hlen)]
      exact ⟨Nat.zero_le 1, nofun⟩
    · refine ⟨Nat.le_trans hlen ?_, fun o ho => hawaited o (.inr hf.mode) (hdue o ho)⟩
      cases hlc : s.lcInFlight
      · rw [State.anchorInFlight_of_lc hlc]
        have := hf.single
        simpa using this
      · rw [hf.anchoring hlc]
        split <;> decide
    · exact Bool.noConfusion (ha.symm.trans hf.active)
  refine ⟨?_, ?_, fun h => Bool.noConfusion (ha.symm.trans h), hanchors.1, hanchors.2, ?_, ?_⟩
  · rw [if_pos hrest.phase, hrest.op]
    decide
  · rw [State.markersFit_iff, hrest.phase, hrest.stack]
    exact nofun
  all_goals simp [hmarkers]

theorem State.stackOrdered_empty {s : State} (h : s.oc.stack = []) (hx : s.oc.successor = none) : s.stackOrdered := by
  unfold State.stackOrdered
  rw [h, hx]
  exact ⟨Nat.zero_le 6, List.Pairwise.nil, nofun, nofun⟩

/-! ## Every step -/

section
variable {s t : State}

/-- What the epoch stack and the operation keep of one another's steps. -/
theorem Does.stackAndOperation {c : Instr} (h : Does c s t) (hs : s.orderly) :
    (s.stackOrdered → t.stackOrdered) ∧ (s.operationFits → t.operationFits) := by
  have ht := h.orderly hs
  cases hat : t.oc.active
  case false =>
    have hrest := State.atRest_of_orderly ht hat
    exact ⟨fun _ => State.stackOrdered_empty hrest.stack hrest.successor, fun _ => State.operationFits_outside ht hat⟩
  case true =>
    cases ha : s.oc.active
    case false =>
      obtain ⟨hstack, hsucc, hop⟩ := (h.outerStep hs ha).begins hat
      exact ⟨fun _ => State.stackOrdered_empty hstack hsucc, fun _ => hop⟩
    case true =>
      have hf := (State.orderly_iff_epochsFit ha).mp hs
      have hreset : c ≠ .pinReset := by
        rintro rfl
        obtain rfl : t = _ := h
        exact Bool.noConfusion hat
      have hdetach : c ≠ .detachComplete := by
        rintro rfl
        have hoff := (State.detachCompletes_cases h).2
        rw [hoff, State.raise_oc, State.dropLatch_oc] at hat
        exact Bool.noConfusion hat
      exact ⟨(h.epochStep hf hreset hdetach).stack hf, fun ho => (State.operationFits_iff hat).mpr
        (h.opFits hf ((State.operationFits_iff ha).mp ho) hreset hdetach)⟩

theorem State.stackOrdered_finish (b : State) (h : s.stackOrdered) : (finish b s).stackOrdered := by
  unfold State.stackOrdered at h ⊢
  rw [finish_oc, finish_lc]
  exact h

theorem State.operationFits_finish (b : State) (h : s.operationFits) : (finish b s).operationFits := by
  refine State.operationFits_congr h ?_ ?_ ?_ ?_ ?_ ?_ ⟨id, fun _ => rfl, ?_⟩
  · rw [finish_oc]
  · rw [finish_oc]
  · rw [finish_re]
  · rw [finish_oc]; exact id
  · rw [finish_oc]
  · rw [State.anchorsDue_congr (finish_port b s) (by rw [finish_lc])]
  · rw [List.map_id]
    exact State.markersDue_congr (by rw [finish_lc])

/-- Settles O57: the stack and the operation, each kept by every command of an orderly part, then by what follows. -/
theorem epochStackStaysOrdered : Obligations.EpochStackStaysOrdered := by
  intro s t hs h
  have hkept {inv : State → Prop} (hinv : inv = State.stackOrdered ∨ inv = State.operationFits) (hi : inv s) : inv t := by
    refine (step_keeps (inv := fun s => s.orderly ∧ inv s) ?_ ?_ ?_ ?_ ?_ ⟨hs, hi⟩ h).2
    · exact fun _ _ ⟨hs, hi⟩ => ⟨State.orderly_congr hs rfl id, by rcases hinv with rfl | rfl <;> exact hi⟩
    · exact fun _ _ ⟨hs, hi⟩ => ⟨State.orderly_congr hs rfl id, by rcases hinv with rfl | rfl <;> exact hi⟩
    · exact fun _ _ ⟨hs, hi⟩ => ⟨State.orderly_congr hs rfl id, by rcases hinv with rfl | rfl <;> exact hi⟩
    · refine fun s u _ ⟨ht, hi⟩ => ⟨State.orderly_finish s ht, ?_⟩
      rcases hinv with rfl | rfl
      · exact State.stackOrdered_finish s hi
      · exact State.operationFits_finish s hi
    · refine fun c _ _ ⟨hs, hi⟩ h => ⟨h.orderly hs, ?_⟩
      rcases hinv with rfl | rfl
      · exact (h.stackAndOperation hs).1 hi
      · exact (h.stackAndOperation hs).2 hi
  exact ⟨hkept (.inl rfl), hkept (.inr rfl)⟩

end

end Sys2Proof.Machine

/-! SUPPORT. The filter: its insertions, what each command does to it, and the levels its entries stand at. -/

namespace Sys2Proof.Machine

/-! ## The insertion keeps the filter orderly (R62, R63, R65, R66) -/

/-- An entry joins those of an orderly filter that are kept. -/
theorem filterOrderly_add {s t : State} (h : s.filterOrderly) {kept : List FilterEntry} {x : FilterEntry}
    (ht : t.cf = kept ++ [x]) (hk : kept.Sublist s.cf) (hb : ∀ e ∈ kept, e.block ≠ x.block) (hw : x.way < 4)
    (hset : ∀ e ∈ kept, filterSet e.block = filterSet x.block → e.way ≠ x.way) : t.filterOrderly := by
  obtain ⟨h1, h2, h3⟩ := h
  unfold State.filterOrderly
  rw [ht]
  refine ⟨?_, fun e he => ?_, ?_⟩
  · rw [List.map_append, List.nodup_append]
    refine ⟨h1.sublist (hk.map _), List.nodup_singleton _, fun b hb' c hc => ?_⟩
    obtain ⟨e, he, rfl⟩ := List.mem_map.mp hb'
    rw [List.mem_singleton.mp hc]
    exact hb e he
  · rcases List.mem_append.mp he with he | he
    · exact h2 e (hk.subset he)
    · rw [List.mem_singleton.mp he]
      exact hw
  · refine List.pairwise_append.mpr ⟨h3.sublist hk, List.pairwise_singleton .., fun e he f hf => ?_⟩
    rw [List.mem_singleton.mp hf]
    exact hset e he

/-- Two entries of one set stand in different ways, whichever comes first. -/
theorem State.filterOrderly.ways {s : State} (h : s.filterOrderly) {e f : FilterEntry} (he : e ∈ s.cf) (hf : f ∈ s.cf)
    (hne : e ≠ f) (hset : filterSet e.block = filterSet f.block) : e.way ≠ f.way := by
  obtain ⟨-, -, h3⟩ := h
  have hsymm : Std.Symm fun e f : FilterEntry => filterSet e.block = filterSet f.block → e.way ≠ f.way :=
    ⟨fun _ _ h hs => (h hs.symm).symm⟩
  exact h3.forall he hf hne hset

theorem victim_mem {v : FilterEntry} : ∀ {l : List FilterEntry}, victim l = some v → v ∈ l
  | [], h => by cases h
  | e :: rest, h => by
    unfold victim at h
    split at h
    · obtain rfl := Option.some.inj h
      exact List.mem_cons_self ..
    · rename_i x hx
      split at h <;> obtain rfl := Option.some.inj h
      · exact List.mem_cons_of_mem _ (victim_mem hx)
      · exact List.mem_cons_self ..

theorem freeWay_some {cf : List FilterEntry} {set w : Nat} (h : freeWay cf set = some w) :
    w < 4 ∧ ∀ e ∈ cf, filterSet e.block = set → e.way ≠ w := by
  refine ⟨List.mem_range.mp (List.mem_of_find?_eq_some h), fun e he hs => ?_⟩
  have hall := List.find?_some h
  rw [List.all_eq_true] at hall
  exact of_decide_eq_true (hall e (setEntries_mem.mpr ⟨he, hs⟩))

/-- What an insertion leaves: the entries kept, and the block's at its level. -/
theorem filterInsert_mem {cf : List FilterEntry} {block : Addr} {k : Nat} {e : FilterEntry}
    (h : e ∈ filterInsert cf block k) : e ∈ cf ∨ e.level = k := by
  have hadd (kept : List FilterEntry) (x : FilterEntry) (hk : ∀ y ∈ kept, y ∈ cf) (hx : x.level = k)
      (he : e ∈ kept ++ [x]) : e ∈ cf ∨ e.level = k := by
    rcases List.mem_append.mp he with he | he
    · exact .inl (hk e he)
    · rw [List.mem_singleton.mp he]
      exact .inr hx
  unfold filterInsert at h
  split at h
  · exact hadd _ _ (fun y hy => (List.mem_filter.mp hy).1) (by rfl) h
  · split at h
    · exact hadd _ _ (fun y hy => hy) (by rfl) h
    · split at h
      · exact hadd _ _ (fun y hy => (List.mem_filter.mp hy).1) (by rfl) h
      · exact .inl h

theorem filterOrderly_insert {s t : State} (h : s.filterOrderly) (block : Addr) (k : Nat)
    (ht : t.cf = filterInsert s.cf block k) : t.filterOrderly := by
  unfold filterInsert at ht
  split at ht
  · rename_i old hold
    have hmem := List.mem_of_find?_eq_some hold
    have hblock : old.block = block := by simpa using List.find?_some hold
    refine filterOrderly_add h ht List.filter_sublist (fun e he => ?_) (h.2.1 old hmem) fun e he hs => ?_
    all_goals rw [List.mem_filter, decide_eq_true_eq] at he
    · exact he.2
    · have hs : filterSet e.block = filterSet block := hs
      have hway : e.way ≠ old.way := h.ways he.1 hmem (fun heq => he.2 (heq ▸ hblock)) (by rw [hblock]; exact hs)
      exact hway
  · rename_i hno
    have hnone (e : FilterEntry) (he : e ∈ s.cf) : e.block ≠ block := by
      simpa using List.find?_eq_none.mp hno e he
    split at ht
    · rename_i w hw
      obtain ⟨hlt, hfree⟩ := freeWay_some hw
      exact filterOrderly_add h ht (List.Sublist.refl _) hnone hlt hfree
    · split at ht
      · rename_i v hv
        obtain ⟨hmem, hset⟩ := setEntries_mem.mp (victim_mem hv)
        refine filterOrderly_add h ht List.filter_sublist (fun e he => hnone e (List.mem_filter.mp he).1) (h.2.1 v hmem)
          fun e he hs => ?_
        rw [List.mem_filter, decide_eq_true_eq] at he
        have hs : filterSet e.block = filterSet block := hs
        have hway : e.way ≠ v.way := h.ways he.1 hmem (fun heq => he.2 (heq ▸ rfl)) (hs.trans hset.symm)
        exact hway
      · exact filterOrderly_filter h (fun _ => true) t (by rw [ht, List.filter_true])

theorem filterOrderly_empty {t : State} (h : t.cf = []) : t.filterOrderly := by
  unfold State.filterOrderly
  rw [h]
  exact ⟨List.nodup_nil, nofun, List.Pairwise.nil⟩

theorem filterOrderly_same {s t : State} (h : s.filterOrderly) (ht : t.cf = s.cf) : t.filterOrderly :=
  filterOrderly_filter h (fun _ => true) t (by rw [ht, List.filter_true])

/-! ## What the shared operations do to the filter -/

section
variable {s t : State}

theorem State.breakAll_cf (c : Condition) (a : Word32) : (s.breakAll c a).cf = s.cf :=
  s.breakAll_onlyChanges c a .cf (by decide)

theorem State.beginEpisode_parts (s : State) (e : HoldEntry) (k : Nat) :
    (s.beginEpisode e k).cf = s.cf ∧ (s.beginEpisode e k).oc = s.oc := by
  unfold State.beginEpisode
  split <;> exact ⟨rfl, rfl⟩

/-- The durable markers of the stack's levels. -/
def State.bits (s : State) : List Bool := s.oc.stack.map Level.durable

theorem State.breakAll_bits (c : Condition) (a : Word32) : (s.breakAll c a).bits = s.bits := by
  unfold State.bits
  rw [State.breakAll_oc, List.map_map]
  rfl

theorem State.noSlot_parts (e : HoldEntry) (k : Nat) :
    ((s.noSlot e k).cf = s.cf ∨ (s.noSlot e k).cf = filterInsert s.cf e.block k) ∧ (s.noSlot e k).bits = s.bits := by
  unfold State.noSlot
  split
  · obtain ⟨hcf, hoc⟩ := (s.setCapture e.order .waiting).beginEpisode_parts e k
    exact ⟨.inl hcf, congrArg (fun oc : Controller => oc.stack.map Level.durable) hoc⟩
  · obtain ⟨hcf, hoc⟩ :=
      (((s.insert e.block k).breakAll .noSpace e.block).setCapture e.order .free).beginEpisode_parts e k
    refine ⟨.inr (hcf.trans (State.breakAll_cf ..)), ?_⟩
    exact (congrArg (fun oc : Controller => oc.stack.map Level.durable) hoc).trans (State.breakAll_bits ..)

/-- A consideration leaves the filter, or inserts the block at the level; the markers stay. -/
theorem State.considerAt_parts (e : HoldEntry) (k : Nat) :
    ((s.considerAt e k).cf = s.cf ∨ (s.considerAt e k).cf = filterInsert s.cf e.block k)
      ∧ (s.considerAt e k).bits = s.bits := by
  unfold State.considerAt
  split
  · split <;> exact ⟨.inl rfl, rfl⟩
  · split
    · split
      · exact ⟨.inr rfl, rfl⟩
      · exact ⟨.inr rfl, rfl⟩
      · exact ⟨.inl rfl, rfl⟩
    · unfold State.needCapture
      split
      · exact State.noSlot_parts e k
      · split
        · exact ⟨.inl rfl, rfl⟩
        · split
          · exact ⟨.inl rfl, rfl⟩
          · split
            · exact ⟨.inl rfl, rfl⟩
            · exact State.noSlot_parts e k
            · unfold State.startCapture
              rw [State.reserve_eq]
              exact ⟨.inr rfl, rfl⟩

/-- A failed capture removes one entry under STRICT, and leaves the filter under POSTED; the markers stay. -/
theorem State.captureFailed_parts (i : Nat) (c : Context) (f : MemFailure) :
    ((s.captureFailed i c f).cf = s.cf ∨ (s.captureFailed i c f).cf = filterRemove s.cf c.block c.level)
      ∧ (s.captureFailed i c f).bits = s.bits := by
  cases hm : s.opts.writeMode
  case strict =>
    rw [State.captureFailed_strict hm]
    unfold State.refuseDependents State.bits
    dsimp only
    rw [State.discardHeld_cf, State.discardHeld_oc]
    exact ⟨.inr rfl, rfl⟩
  case posted =>
    rw [State.captureFailed_posted hm]
    exact ⟨.inl (State.breakAll_cf ..), State.breakAll_bits ..⟩

theorem State.popLevel_cf (s : State) : s.popLevel.cf = s.cf.filter fun e => decide (e.level ≠ s.oc.depth) := by
  unfold State.popLevel State.stopTimerIfEmpty
  split <;> rfl

theorem State.filterOrderly.popLevels (n : Nat) : ∀ {s : State}, s.filterOrderly → (s.popLevels n).filterOrderly := by
  induction n with
  | zero => exact id
  | succ n ih => exact fun h => ih (filterOrderly_filter h _ _ (State.popLevel_cf _))

theorem State.discardLevels_cf (s : State) : s.discardLevels.cf = (s.popLevels s.discardPops).cf :=
  State.breakAll_cf ..

theorem State.leaveFreeze_cf (s : State) : s.leaveFreeze.cf = s.cf := by rw [State.leaveFreeze_eq]

/-- The replay of a slot leaves the filter, but that a pop invalidates its level's entries. -/
theorem State.replayRecord_cf (header payload : BlockData) :
    (s.replayRecord header payload).cf = s.cf ∨ (s.replayRecord header payload).cf = s.popLevel.cf := by
  have hdone (u : State) : u.slotDone.cf = u.cf := by
    unfold State.slotDone
    dsimp only
    split <;> rfl
  have hends (u : State) : u.replayEnds.cf = u.cf := by
    unfold State.replayEnds
    dsimp only
    split
    · rfl
    · rw [State.rolledBack_eq]
  unfold State.replayRecord
  split
  · exact .inl rfl
  · split
    · split
      · exact .inl rfl
      · unfold State.replayOpen
        split
        · dsimp only
          split
          · exact .inr (hends _)
          · exact .inr (hdone _)
        · exact .inl (hdone _)
      · exact .inl (hdone _)
    · exact .inl rfl

/-- An anchor's end leaves the filter or empties it. -/
theorem State.anchorDone_cf (o : AnchorOccasion) : (s.anchorDone o).cf = s.cf ∨ (s.anchorDone o).cf = [] := by
  cases o
  case commit =>
    simp only [State.anchorDone, State.committed]
    split
    · exact .inl rfl
    · exact .inr rfl
  case rotateMarker =>
    simp only [State.anchorDone, State.rotated]
    split
    · exact .inl rfl
    · exact .inr rfl
  case rotateFirst =>
    simp only [State.anchorDone]
    cases hx : s.oc.successor with
    | none =>
      unfold State.rotatedFirst
      rw [hx]
      exact .inl rfl
    | some x => exact .inr (State.rotatedFirst_parts hx).2.1
  case rollback =>
    simp only [State.anchorDone]
    rw [State.rolledBack_eq]
    exact .inl rfl
  all_goals exact .inl rfl

theorem State.detachCompletes_cf (h : s.detachCompletes = some t) : t.cf = [] := by
  obtain ⟨-, rfl⟩ := State.detachCompletes_cases h
  rw [State.raise_cf, State.dropLatch_onlyChanges _ .cf (by decide)]

/-- Every command keeps the filter orderly. -/
theorem Does.filterOrderly {c : Instr} (h : Does c s t) (hs : s.filterOrderly) : t.filterOrderly := by
  cases c
  case pinReset =>
    obtain rfl : t = _ := h
    exact filterOrderly_empty rfl
  case detachComplete => exact filterOrderly_empty (State.detachCompletes_cf h)
  case consideration =>
    obtain ⟨e, level, -, -, -, -, rfl⟩ := State.consider_cases h
    rcases (State.considerAt_parts (s := s) e level).1 with hcf | hcf
    · exact filterOrderly_same hs hcf
    · exact filterOrderly_insert hs _ _ hcf
  case captureRequestFailed =>
    obtain ⟨i, part, -, rfl | ⟨x, -, -, rfl⟩⟩ := State.captureFails_cases h
    · exact filterOrderly_same hs rfl
    · rcases (State.captureFailed_parts (s := s.portFreed) i x _).1 with hcf | hcf
      · exact filterOrderly_same hs hcf
      · exact filterOrderly_filter hs _ _ hcf
  case anchorWriteComplete =>
    obtain ⟨job, -, rfl⟩ := State.anchorWritten_cases h
    rcases State.anchorDone_cf (s := s.portFreed.anchored job) job.occasion with hcf | hcf
    · exact filterOrderly_same hs hcf
    · exact filterOrderly_empty hcf
  case replayReadComplete =>
    obtain ⟨-, -, -, ⟨d, rfl⟩ | ⟨d, p, rfl⟩ | ⟨x, rfl⟩⟩ := State.replayRead_cases h
    · exact filterOrderly_same hs rfl
    · rcases State.replayRecord_cf (s := s.portFreed) d p with hcf | hcf
      · exact filterOrderly_same hs hcf
      · exact filterOrderly_filter hs _ _ (hcf.trans (State.popLevel_cf _))
    · exact filterOrderly_same hs rfl
  case commit =>
    obtain ⟨-, -, base, top, -, ⟨-, rfl⟩ | ⟨-, rfl⟩⟩ := State.commit_cases h
    · refine filterOrderly_relabel hs (fun e => if e.level = s.oc.depth then { e with level := s.oc.depth - 1 } else e)
        (fun e => ?_) (fun e => ?_) _ rfl
      all_goals split <;> rfl
    · exact filterOrderly_same hs rfl
  case discard =>
    obtain ⟨-, -, ⟨-, rfl⟩ | ⟨-, rfl⟩⟩ := State.discard_cases h
    all_goals exact filterOrderly_same (hs.popLevels s.discardPops) s.discardLevels_cf
  all_goals exact filterOrderly_same hs (h.frame .cf (by simp [footprint]))

end

end Sys2Proof.Machine

/-! SUPPORT. The levels the filter's entries stand at: every command of an orderly part keeps them on the stack, their
markers durable. -/

namespace Sys2Proof.Machine

/-- Every entry stands at a level whose marker is durable, read off the list of the markers. -/
def levelsFit (cf : List FilterEntry) (bits : List Bool) : Prop :=
  ∀ e ∈ cf, 1 ≤ e.level ∧ bits[e.level - 1]? = some true

theorem State.filterLevelsFit_iff (s : State) : s.filterLevelsFit ↔ levelsFit s.cf s.bits := by
  have hlevel (k : Nat) : (∃ l, s.oc.stack[k]? = some l ∧ l.durable = true) ↔ s.bits[k]? = some true := by
    unfold State.bits
    rw [List.getElem?_map, Option.map_eq_some_iff]
  unfold State.filterLevelsFit levelsFit
  simp only [hlevel]

section
variable {cf cf' : List FilterEntry} {bits bits' : List Bool}

theorem levelsFit_nil : levelsFit [] bits := nofun

/-- Entries may leave, and markers become durable or be added. -/
theorem levelsFit.mono (h : levelsFit cf bits) (hcf : cf' ⊆ cf)
    (hb : ∀ i : Nat, bits[i]? = some true → bits'[i]? = some true) : levelsFit cf' bits' := fun e he =>
  ⟨(h e (hcf he)).1, hb _ (h e (hcf he)).2⟩

theorem levelsFit.append (h : levelsFit cf bits) (more : List Bool) : levelsFit cf (bits ++ more) :=
  h.mono (List.Subset.refl _) fun i hi => by
    rw [List.getElem?_append_left (List.getElem?_eq_some_iff.mp hi).1]
    exact hi

/-- The innermost level goes, its marker not durable, or with its entries. -/
theorem levelsFit.dropLast (h : levelsFit cf bits) (hcf : cf' ⊆ cf) (hlast : ∀ e ∈ cf', e.level ≠ bits.length) :
    levelsFit cf' bits.dropLast := by
  intro e he
  obtain ⟨h1, h2⟩ := h e (hcf he)
  have hlt := (List.getElem?_eq_some_iff.mp h2).1
  have hne := hlast e he
  refine ⟨h1, ?_⟩
  rw [List.getElem?_dropLast, if_pos (by omega)]
  exact h2

theorem levelsFit.dropLast_open {base : List Bool} (h : levelsFit cf bits) (hb : bits = base ++ [false]) :
    levelsFit cf bits.dropLast := by
  refine h.dropLast (List.Subset.refl _) fun e he heq => ?_
  have h2 := (h e he).2
  rw [hb] at h2 heq
  have hidx : e.level - 1 = base.length := by
    rw [List.length_append, List.length_singleton] at heq
    omega
  rw [hidx, List.getElem?_concat_length] at h2
  cases h2

/-- A marker of the list becomes durable. -/
theorem bits_modify {ls : List Level} {f : Level → Level} (hf : ∀ l, l.durable = true → (f l).durable = true) (n i : Nat)
    (h : (ls.map Level.durable)[i]? = some true) : ((ls.modify n f).map Level.durable)[i]? = some true := by
  rw [List.getElem?_map, Option.map_eq_some_iff] at h ⊢
  obtain ⟨l, hl, hd⟩ := h
  rw [List.getElem?_modify, hl]
  by_cases hn : n = i
  · exact ⟨f l, by simp [hn], hf l hd⟩
  · exact ⟨l, by simp [hn], hd⟩

/-- An insertion at a level whose marker is durable. -/
theorem levelsFit.insert (h : levelsFit cf bits) (block : Addr) {k : Nat} (hk : 1 ≤ k) (hd : bits[k - 1]? = some true) :
    levelsFit (filterInsert cf block k) bits := fun e he => by
  rcases filterInsert_mem he with he | he
  · exact h e he
  · rw [he]
    exact ⟨hk, hd⟩

end

/-! ## Steps -/

/-- The entries of the filter keep their levels. -/
def LevelStep (s t : State) : Prop := levelsFit s.cf s.bits → levelsFit t.cf t.bits

namespace LevelStep

variable {s t u : State}

theorem trans (h : LevelStep s t) (h' : LevelStep t u) : LevelStep s u := fun hs => h' (h hs)

theorem of_parts (hcf : t.cf = s.cf) (hb : t.bits = s.bits) : LevelStep s t := fun h => by rwa [hcf, hb]

/-- Neither filter nor stack changes. -/
theorem still (hcf : t.cf = s.cf) (hs : t.oc.stack = s.oc.stack) : LevelStep s t :=
  of_parts hcf (congrArg (List.map Level.durable) hs)

theorem empty (hcf : t.cf = []) : LevelStep s t := fun _ => by
  rw [hcf]
  exact levelsFit_nil

/-- A level's marker stays durable, or becomes so. -/
theorem setLevel (s : State) (k : Nat) {f : Level → Level} (hf : ∀ l, l.durable = true → (f l).durable = true) :
    LevelStep s (s.setLevel k f) := fun h => by
  refine h.mono (List.Subset.refl _) fun i hi => ?_
  unfold State.bits
  rw [State.setLevel_oc]
  dsimp only
  split
  · exact hi
  · exact bits_modify hf _ i hi

theorem popLevel (s : State) : LevelStep s s.popLevel := fun h => by
  have hbits : s.popLevel.bits = s.bits.dropLast := by
    unfold State.bits
    rw [s.popLevel_parts.1, List.map_dropLast]
  rw [hbits, State.popLevel_cf]
  refine h.dropLast (List.filter_subset_self _) fun e he => ?_
  have hlen : s.bits.length = s.oc.depth := List.length_map ..
  rw [List.mem_filter, decide_eq_true_eq] at he
  rw [hlen]
  exact he.2

theorem popLevels (n : Nat) : ∀ s : State, LevelStep s (s.popLevels n) := by
  induction n with
  | zero => exact fun _ => id
  | succ n ih => exact fun s => (popLevel s).trans (ih _)

theorem discardLevels (s : State) : LevelStep s s.discardLevels :=
  (popLevels s.discardPops s).trans (of_parts s.discardLevels_cf (State.breakAll_bits ..))

theorem failOpen (hm : s.oc.phase.markersWanted s.bits) (hp : s.oc.phase = .openWait ∨ s.oc.phase = .openMarker)
    (c : Condition) : LevelStep s (s.failOpen c) := fun hs => by
  have hbase : ∃ base, s.bits = base ++ [false] ∧ ∀ b ∈ base, b = true := by
    rcases hp with hp | hp <;> rw [hp] at hm <;> exact hm
  obtain ⟨base, hb, -⟩ := hbase
  have hcf : (s.failOpen c).cf = s.cf := s.failOpen_frame c .cf (by decide)
  have hbits : (s.failOpen c).bits = s.bits.dropLast := by
    unfold State.bits
    rw [(s.failOpen_parts c).1, List.map_dropLast]
  rw [hcf, hbits]
  exact hs.dropLast_open hb

/-- The level a dead log takes has no durable marker, and no entry. -/
theorem deathStack (h : s.opFits) (hcf : t.cf = s.cf) (hs : t.oc.stack = s.oc.deathStack) : LevelStep s t := fun hl => by
  have hbits : t.bits = s.oc.deathStack.map Level.durable := congrArg (List.map Level.durable) hs
  rw [hcf, hbits]
  have hm := h.marks
  unfold Controller.deathStack
  cases hp : s.oc.phase <;> rw [hp] at hm <;> simp only [List.map_dropLast]
  case openWait | openMarker =>
    obtain ⟨base, hb, -⟩ := hm
    exact hl.dropLast_open hb
  case rotateLateMarker => exact hl.dropLast_open (base := []) hm
  all_goals exact hl

theorem endForDeadLog (h : s.opFits) : LevelStep s s.endForDeadLog := by
  refine deathStack h (s.abandonEpochOp_onlyChanges .cf (by decide)) ?_
  have hstack : s.endForDeadLog.oc.stack = s.abandonEpochOp.oc.stack := rfl
  rw [hstack, State.abandonEpochOp_oc]
  rfl

theorem declareDead (h : s.opFits) (f : MemFailure) : LevelStep s (s.declareDead f) := by
  obtain ⟨⟨-, -, -, -, -, -, hcf, -⟩, -⟩ := s.declareDead_leaves f
  exact deathStack h hcf (s.declareDead_stack f).1

/-! ## The durable mark -/

theorem markerDurable (s : State) (e : Reservation) : LevelStep s (s.markerDurable e) := by
  have hset (k : Nat) := setLevel s k (f := fun l => { l with durable := true }) fun _ _ => rfl
  unfold State.markerDurable
  cases hp : s.oc.phase
  case openMarker =>
    refine (hset e.level).trans (still ?_ ?_) <;>
      (simp only [State.openMarkerDurable]; split <;> rfl)
  case rotateLateMarker origin => exact (hset 1).trans (still rfl rfl)
  all_goals exact still rfl rfl

theorem markerFailed (hm : s.oc.phase.markersWanted s.bits) (c : Condition) : LevelStep s (s.markerFailed c) := by
  unfold State.markerFailed
  cases hp : s.oc.phase
  case openMarker =>
    refine (failOpen hm (.inr hp) c).trans (still ?_ ?_) <;>
      (simp only [State.openMarkerFailed]; split <;> rfl)
  case rotateMarker =>
    refine still ?_ ?_ <;> (simp only [State.abandonRotation]; split <;> rfl)
  case rotateLateMarker origin =>
    intro hl
    rw [hp] at hm
    have hb : s.bits = [] ++ [false] := hm
    have hbits : (s.lateMarkerFailed origin c).bits = s.bits.dropLast := List.map_dropLast
    rw [hbits]
    exact hl.dropLast_open hb
  all_goals exact still rfl rfl

theorem passEntry (hm : s.oc.phase.markersWanted s.bits) (e : Reservation) : LevelStep s (s.passEntry e) := by
  have hslot : LevelStep s (s.slotDurable e.slot) := still rfl rfl
  unfold State.passEntry
  dsimp only
  split
  · exact hslot.trans (setLevel _ _ fun _ hd => hd)
  · exact hslot
  · exact hslot.trans (markerDurable _ _)
  · exact hslot.trans (markerFailed (s := s.slotDurable e.slot) hm _)

theorem advanceOver (ls : List Reservation) : ∀ s : State, s.opFits → s.epochsFit → s.lc.reservations = ls →
    LevelStep s (advanceOver ls s) := by
  induction ls with
  | nil => exact fun _ _ _ _ => id
  | cons e rest ih =>
    intro s h hf hr
    unfold Machine.advanceOver
    split
    · obtain ⟨u, hu⟩ : ∃ u : State, u = { s with
        lc := { s.lc with reservations := rest, durable := s.lc.durable + 1 } } := ⟨_, rfl⟩
      have hmark : u.epochsFit := by
        subst hu
        exact ⟨hf.active, hf.attach, hf.fence, hf.slots, hf.heldLog, hf.notScanning, hf.purpose, hf.rolling, hf.writes,
          hf.port, hf.attachRead⟩
      have hpass : (u.passEntry e).opFits := by
        subst hu
        exact h.passEntry hr _ hmark
      have hstill : LevelStep s u := by
        subst hu
        exact still rfl rfl
      have hmarks : u.oc.phase.markersWanted u.bits := by
        subst hu
        exact h.marks
      rw [← hu]
      refine hstill.trans ((passEntry hmarks e).trans (ih _ hpass ((EpochStep.passEntry _ e).fits hmark) ?_))
      rw [State.passEntry_reservations, hu]
    · exact id

theorem advanceMark (h : s.opFits) (hf : s.epochsFit) : LevelStep s s.advanceMark := advanceOver _ s h hf rfl

/-! ## Consideration, COMMIT, the ends of anchors -/

/-- The level a considerable write is considered at is on the stack, its marker durable: the stack's serials differ. -/
theorem considered (hs : s.stackOrdered) {stamp : Word32} {k : Nat} (hc : s.oc.considerable stamp = true)
    (hk : s.oc.levelOf stamp = some k) : 1 ≤ k ∧ s.bits[k - 1]? = some true := by
  simp only [Controller.considerable, List.any_eq_true, Bool.and_eq_true, decide_eq_true_eq] at hc
  obtain ⟨l, hl, hserial, hd⟩ := hc
  unfold Controller.levelOf at hk
  split at hk
  · cases hk
  · split at hk
    · rename_i i hi
      obtain rfl := Option.some.inj hk
      obtain ⟨hlt, hfound, -⟩ := List.findIdx?_eq_some_iff_getElem.mp hi
      obtain ⟨j, hj, rfl⟩ := List.getElem_of_mem hl
      have hsame : i = j := by
        have hpair := hs.2.1
        rw [List.pairwise_iff_getElem] at hpair
        have heq : (s.oc.stack[i]'hlt).serial = (s.oc.stack[j]'hj).serial := (of_decide_eq_true hfound).trans hserial.symm
        rcases Nat.lt_trichotomy i j with h | h | h
        · have := hpair i j hlt hj h
          rw [heq] at this
          omega
        · exact h
        · have := hpair j i hj hlt h
          rw [heq] at this
          omega
      refine ⟨Nat.succ_pos i, ?_⟩
      unfold State.bits
      rw [Nat.add_sub_cancel, List.getElem?_map, hsame, List.getElem?_eq_getElem hj, Option.map_some, hd]
    · rename_i hnone
      exact absurd hserial (by simpa using List.findIdx?_eq_none_iff.mp hnone l hl)

theorem consider (hs : s.stackOrdered) (h : s.consider = some t) : LevelStep s t := by
  obtain ⟨e, k, -, -, hm, hk, rfl⟩ := State.consider_cases h
  rw [State.mayConsider, Bool.and_eq_true] at hm
  obtain ⟨h1, hd⟩ := considered hs hm.1 hk
  obtain ⟨hcf, hb⟩ := State.considerAt_parts (s := s) e k
  rcases hcf with hcf | hcf
  · exact of_parts hcf hb
  · intro hl
    rw [hcf, hb]
    exact hl.insert _ h1 hd

/-- An inner COMMIT gives its entries to the level below (R52, R68). -/
theorem commitInner (hd : ∀ l ∈ s.oc.stack, l.durable = true) (h2 : 2 ≤ s.oc.depth) (l : Level) :
    LevelStep s (s.commitInner s.oc.depth l) := fun hl => by
  have hlen : s.bits.length = s.oc.depth := List.length_map ..
  have hbits : (s.commitInner s.oc.depth l).bits = s.bits.dropLast := by
    have hset : (s.setLevel (s.oc.depth - 1) fun m =>
        { m with captures := saturatingAdd m.captures l.captures }).bits = s.bits := by
      unfold State.bits
      rw [State.setLevel_oc]
      dsimp only
      split
      · rfl
      · exact Beside.map_modify_of_eq
          (f := fun m : Level => { m with captures := saturatingAdd m.captures l.captures }) (fun _ => rfl) _ _
    rw [← hset]
    exact List.map_dropLast
  have hall (i : Nat) (hi : i < s.oc.depth - 1) : s.bits.dropLast[i]? = some true := by
    rw [List.getElem?_dropLast, if_pos (by omega), List.getElem?_eq_getElem (by omega)]
    have hmem := List.getElem_mem (l := s.bits) (n := i) (by omega)
    obtain ⟨m, hm, hmd⟩ := List.mem_map.mp hmem
    rw [← hmd, hd m hm]
  have hcf : (s.commitInner s.oc.depth l).cf = filterRelabel s.cf s.oc.depth := rfl
  rw [hbits, hcf]
  intro e he
  obtain ⟨x, hx, rfl⟩ := List.mem_map.mp he
  obtain ⟨h1, hx2⟩ := hl x hx
  have hlt := (List.getElem?_eq_some_iff.mp hx2).1
  split
  · exact ⟨by dsimp only; omega, hall _ (by dsimp only; omega)⟩
  · exact ⟨h1, hall _ (by omega)⟩

theorem replayRecord (s : State) (header payload : BlockData) : LevelStep s (s.replayRecord header payload) := by
  have hdone (u : State) : LevelStep u u.slotDone := by
    unfold State.slotDone
    dsimp only
    split <;> exact still rfl rfl
  have hends (u : State) : LevelStep u u.replayEnds := by
    unfold State.replayEnds
    dsimp only
    split
    · exact still rfl rfl
    · rw [State.rolledBack_eq]
      exact still rfl rfl
  unfold State.replayRecord
  split
  · exact still rfl rfl
  · split
    · split
      · exact still rfl rfl
      · unfold State.replayOpen
        split
        · dsimp only
          split
          · exact (popLevel s).trans (hends _)
          · exact (popLevel s).trans (hdone _)
        · exact hdone s
      · exact hdone s
    · exact still rfl rfl

/-- An anchor's end empties the filter, or leaves it and the stack. -/
theorem anchorDone (s : State) (o : AnchorOccasion) : LevelStep s (s.anchorDone o) := by
  cases o
  case commit =>
    simp only [State.anchorDone, State.committed]
    split
    · exact still rfl rfl
    · exact empty rfl
  case rotateMarker =>
    simp only [State.anchorDone, State.rotated]
    split
    · exact still rfl rfl
    · exact empty rfl
  case rotateFirst =>
    simp only [State.anchorDone]
    cases hx : s.oc.successor with
    | none =>
      unfold State.rotatedFirst
      rw [hx]
      exact still rfl rfl
    | some x => exact empty (State.rotatedFirst_parts hx).2.1
  case rollback =>
    simp only [State.anchorDone]
    rw [State.rolledBack_eq]
    exact still rfl rfl
  all_goals exact still rfl rfl

theorem orderingEnds (h : s.opFits) (ht : s.orderingEnds = some t) : LevelStep s t := by
  obtain ⟨hp, ⟨-, rfl⟩ | ⟨-, rfl⟩ | ⟨-, rfl⟩⟩ := State.orderingEnds_cases ht
  · refine (endForDeadLog h).trans (still (State.enterFence_frame _ _ _ .cf (by decide)) ?_)
    unfold State.enterFence State.fenceDiscard
    simp only [State.raise_oc, State.discardHeld_oc]
    rfl
  · exact (failOpen h.marks (.inl hp) _).trans (still rfl rfl)
  · have hframe := s.reserve_frame .marker s.oc.depth s.oc.innermost
    have hreserve : LevelStep s (s.reserve .marker s.oc.depth s.oc.innermost) :=
      still (hframe .cf (by decide)) (congrArg Controller.stack (hframe .oc (by decide)))
    exact hreserve.trans ((setLevel _ _ (f := fun l => { l with start := some s.lc.head }) fun _ hd => hd).trans
      (still rfl rfl))

theorem rotateWaitEnds (ht : s.rotateWaitEnds = some t) : LevelStep s t := by
  obtain ⟨-, -, x, -, ⟨-, rfl⟩ | ⟨-, rfl⟩⟩ := State.rotateWaitEnds_cases ht
  · have hframe := s.setBar.reserve_frame .marker 1 x.serial
    exact still (hframe .cf (by decide)) (congrArg Controller.stack (hframe .oc (by decide)) :)
  · exact still rfl rfl

/-! ## Faults and the timer leave the stack -/

theorem raise (s : State) (k : EventKind) (n : Nat) (c : Condition) (w a : Word32) : LevelStep s (s.raise k n c w a) :=
  still rfl rfl

theorem enterFence (s : State) (r : FenceReason) (c : Condition) : LevelStep s (s.enterFence r c) := by
  refine still (State.enterFence_frame _ _ _ .cf (by decide)) ?_
  unfold State.enterFence State.fenceDiscard
  cases r <;> simp only [State.raise_oc, State.discardHeld_oc] <;> rfl

theorem acceptRollback (s : State) (j : Nat) (o : RollbackOrigin) : LevelStep s (s.acceptRollback j o) := by
  unfold State.acceptRollback
  refine still ?_ ?_
  · rw [State.discardHeld_cf]
  · rw [State.discardHeld_oc]

theorem faultRollback (s : State) (j : Nat) : LevelStep s (s.faultRollback j) := by
  unfold State.faultRollback
  split
  · exact (raise _ _ _ _ _ _).trans (enterFence _ _ _)
  · exact (acceptRollback _ _ _).trans (raise _ _ _ _ _ _)

theorem actOnFault (s : State) : LevelStep s s.actOnFault := by
  unfold State.actOnFault
  split
  · exact id
  · exact (raise _ _ _ _ _ _).trans (enterFence _ _ _)
  · split
    · exact raise _ _ _ _ _ _
    · exact faultRollback s _
  · split
    · exact raise _ _ _ _ _ _
    · exact faultRollback s _

theorem takeAssertion (s : State) : LevelStep s s.takeAssertion := by
  unfold State.takeAssertion
  split
  · exact still rfl rfl
  · split
    · exact still rfl rfl
    · split
      · exact actOnFault s
      · split <;> exact still rfl rfl

theorem dropLatch (s : State) : LevelStep s s.dropLatch := by
  unfold State.dropLatch
  split <;> exact still rfl rfl

theorem timerRotation (s : State) : LevelStep s s.timerRotation := by
  rcases State.timerRotation_cases s with ⟨-, h⟩ | ⟨-, h⟩ <;> rw [h]
  · exact still rfl rfl
  · exact still rfl rfl

end LevelStep

/-- Every command in ONLINE and FENCED keeps the levels of the filter's entries. -/
theorem Does.levelStep {c : Instr} {s t : State} (h : Does c s t) (hf : s.epochsFit) (ho : s.opFits)
    (hs : s.stackOrdered) : LevelStep s t := by
  have hportFreed : LevelStep s s.portFreed := .still rfl rfl
  cases c
  case pinReset =>
    obtain rfl : t = _ := h
    exact .empty rfl
  case detachComplete => exact .empty (State.detachCompletes_cf h)
  case consideration => exact .consider hs h
  case captureRequestFailed =>
    obtain ⟨i, part, -, rfl | ⟨x, -, -, rfl⟩⟩ := State.captureFails_cases h
    · exact .still rfl rfl
    · obtain ⟨hcf, hb⟩ := State.captureFailed_parts (s := s.portFreed) i x _
      intro hl
      rw [hb]
      rcases hcf with hcf | hcf <;> rw [hcf]
      · exact hl
      · exact hl.mono (List.filter_subset_self _) fun _ hi => hi
  case captureHeaderWriteComplete =>
    obtain ⟨i, -, rfl | ⟨x, -, rfl⟩⟩ := State.captureHeader_cases h
    · exact .still rfl rfl
    · have hb := (Beside.portFreed s).trans ((Beside.setContext _ i { x with state := .written }).trans
        (Beside.slotWritten _ x.slot))
      exact LevelStep.trans (.still rfl rfl) (.advanceMark (hb.opFits hf ho) (hb.fits hf))
  case markerWriteComplete =>
    obtain ⟨slot, -, rfl⟩ := State.markerWritten_cases h
    have hb := (Beside.portFreed s).trans (Beside.slotWritten _ slot)
    exact LevelStep.trans (.still rfl rfl) (.advanceMark (hb.opFits hf ho) (hb.fits hf))
  case voidWriteComplete =>
    obtain ⟨slot, -, rfl⟩ := State.voidWritten_cases h
    have hb := (Beside.portFreed s).trans (Beside.slotWritten _ slot)
    exact LevelStep.trans (.still rfl rfl) (.advanceMark (hb.opFits hf ho) (hb.fits hf))
  case voidWriteFailed =>
    obtain ⟨slot, -, ⟨-, rfl⟩ | ⟨-, rfl⟩⟩ := State.voidWriteFails_cases h
    · exact .still rfl rfl
    · exact hportFreed.trans (.declareDead ((Beside.portFreed s).opFits hf ho) _)
  case anchorWriteComplete =>
    obtain ⟨job, -, rfl⟩ := State.anchorWritten_cases h
    exact LevelStep.trans (.still rfl rfl) (.anchorDone (s.portFreed.anchored job) _)
  case anchorWriteFailed =>
    obtain ⟨job, -, ⟨-, rfl⟩ | ⟨-, hm, -⟩ | ⟨-, -, rfl⟩⟩ := State.anchorWriteFails_cases h
    · exact .still rfl rfl
    · exact absurd hm (Controller.mode_of_active hf.active).2.1
    · have hb := (Beside.portFreed s).trans (Beside.copyFailed _ job.copy)
      exact LevelStep.trans (.still rfl rfl) (.declareDead (hb.opFits hf ho) _)
  case replayReadComplete =>
    obtain ⟨-, -, -, ⟨d, rfl⟩ | ⟨d, p, rfl⟩ | ⟨x, rfl⟩⟩ := State.replayRead_cases h
    · exact .still rfl rfl
    · exact hportFreed.trans (.replayRecord _ _ _)
    · exact .still rfl rfl
  case restoreWriteComplete =>
    obtain ⟨-, -, -, rfl | ⟨x, rfl⟩⟩ := State.restoreEnds_cases h
    · unfold State.slotDone
      dsimp only
      split <;> exact .still rfl rfl
    · exact .still rfl rfl
  case orderingWaitEnd => exact .orderingEnds ho h
  case commitWaitEnd =>
    obtain ⟨-, -, rfl⟩ := State.commitWaitEnds_cases h
    exact .still rfl rfl
  case rotateWaitEnd => exact .rotateWaitEnds h
  case settlingEnd =>
    obtain ⟨-, -, ⟨x, n, rfl⟩ | rfl⟩ := State.settle_cases h
    all_goals exact .still rfl rfl
  case openEpoch =>
    obtain ⟨-, -, -, -, rfl⟩ := State.openEpoch_cases h
    intro hl
    have happ := hl.append [false]
    have hbits : s.bits ++ [false] = (({ s with lc := { s.lc with nextSerial := s.lc.nextSerial + 1 } } : State).pushLevel
        s.lc.nextSerial).bits := by
      simp [State.bits, State.pushLevel]
    rw [hbits] at happ
    exact happ
  case commit =>
    obtain ⟨-, hop, base, top, hbase, ⟨hone, rfl⟩ | ⟨-, rfl⟩⟩ := State.commit_cases h
    · refine .commitInner (ho.idle hf hop).durable ?_ _
      rw [Controller.depth, hbase, List.length_append, List.length_singleton]
      omega
    · exact .still rfl rfl
  case rotate =>
    obtain ⟨-, -, -, -, rfl⟩ := State.rotate_cases h
    exact .still rfl rfl
  case rollback =>
    obtain ⟨-, -, -, -, rfl⟩ := State.rollback_cases h
    exact .acceptRollback s _ _
  case resume =>
    obtain ⟨-, ⟨-, rfl⟩ | ⟨-, -, rfl⟩⟩ := State.resume_cases h
    all_goals exact .still rfl rfl
  case discard =>
    obtain ⟨-, -, ⟨-, rfl⟩ | ⟨-, rfl⟩⟩ := State.discard_cases h
    all_goals exact (LevelStep.discardLevels s).trans (.still rfl rfl)
  case thaw =>
    obtain ⟨-, -, rfl | rfl⟩ := State.thaw_cases h
    all_goals exact .still rfl rfl
  case detach =>
    obtain ⟨-, rfl⟩ := State.detach_cases h
    exact .still rfl rfl
  case faultAssertion =>
    obtain ⟨-, rfl | rfl⟩ := State.assertFault_cases h
    · exact .still rfl rfl
    · exact LevelStep.trans (t := { s with oc := { s.oc with faultLine := true } }) (.still rfl rfl) (.takeAssertion _)
  case faultDeassertion =>
    obtain rfl := State.deassertFault_cases h
    exact .still rfl rfl
  case faultLatchTaken =>
    obtain ⟨-, ⟨-, rfl⟩ | ⟨-, rfl⟩⟩ := State.takeLatch_cases h
    · exact LevelStep.trans (t := { s with oc := { s.oc with latch := false } }) (.still rfl rfl) (.actOnFault _)
    · exact .dropLatch s
  case rotationTimerExpiry =>
    obtain rfl | ⟨-, rfl⟩ | ⟨-, rfl⟩ := State.timerExpires_cases h
    · exact .still rfl rfl
    · exact LevelStep.trans (t := s.startTimer) (.still rfl rfl) (.timerRotation _)
    · exact .still rfl rfl
  case pendingRotationTaken =>
    obtain ⟨-, rfl⟩ := State.takePendingRotation_cases h
    exact LevelStep.trans (t := { s with oc := { s.oc with rotationPending := false } }) (.still rfl rfl)
      (.timerRotation _)
  case resetnRelease =>
    obtain rfl : t = _ := h
    exact .still rfl rfl
  case attachKeep | attachFormat =>
    exact absurd (State.attach_cases h).1 (Controller.mode_of_active hf.active).1
  case recover => exact absurd (State.recover_cases h).1 (Controller.mode_of_active hf.active).2.2.1
  case anchorReadComplete =>
    obtain ⟨o, f, rfl | ⟨a, rfl⟩, he, -⟩ | ⟨d, -, he, -⟩ | ⟨a, d, -, he, -⟩ := State.anchorRead_cases h
    all_goals exact Bool.noConfusion (hf.owner he)
  case tailReadComplete =>
    obtain ⟨o, rfl | ⟨d, rfl⟩, he, -⟩ := State.tailRead_cases h
    all_goals exact Bool.noConfusion (hf.owner he)
  case attachDrainEnd =>
    obtain ⟨a, -, hm, -⟩ := State.drainEnds_cases h
    exact absurd hm (Controller.mode_of_active hf.active).2.1
  all_goals
    have hframe := h.frame
    exact .still (hframe .cf (by simp [footprint])) (congrArg Controller.stack (hframe .oc (by simp [footprint])))

/-! ## Every step -/

section
variable {s t : State}

/-- Outside ONLINE and FENCED the filter is empty where its entries' levels fit. -/
theorem levelsFit_outside (hs : s.orderly) (ha : s.oc.active = false) (hl : levelsFit s.cf s.bits) : s.cf = [] := by
  refine List.eq_nil_iff_forall_not_mem.mpr fun e he => ?_
  have hb := (hl e he).2
  have hnil : s.bits = [] := by
    unfold State.bits
    rw [(State.atRest_of_orderly hs ha).stack]
    rfl
  rw [hnil] at hb
  cases hb

theorem Does.levelsFit {c : Instr} (h : Does c s t) (hs : s.orderly) (hst : s.stackOrdered) (hop : s.operationFits)
    (hl : levelsFit s.cf s.bits) : levelsFit t.cf t.bits := by
  cases ha : s.oc.active
  case false =>
    rw [(h.outerStep hs ha).filter (levelsFit_outside hs ha hl)]
    exact levelsFit_nil
  case true =>
    exact h.levelStep ((State.orderly_iff_epochsFit ha).mp hs) ((State.operationFits_iff ha).mp hop) hst hl

/-- An orderly part, its stack ordered, one operation at work, its filter's entries at durable levels. -/
structure State.levelled (s : State) : Prop where
  orderly : s.orderly
  stack : s.stackOrdered
  operation : s.operationFits
  levels : levelsFit s.cf s.bits

/-- Settles O55: each command's edit of the filter, and the levels of its entries. -/
theorem filterStaysOrderly : Obligations.FilterStaysOrderly := by
  intro s t h
  refine ⟨fun hs => ?_, fun hs hst hop hl => ?_⟩
  · refine step_keeps (inv := State.filterOrderly) ?_ ?_ ?_ ?_ (fun _ _ _ hs h => h.filterOrderly hs) hs h
    · exact fun _ _ hs => hs
    · exact fun _ _ hs => hs
    · exact fun _ _ hs => hs
    · exact fun s t _ ht => filterOrderly_same ht (finish_cf s t)
  · rw [State.filterLevelsFit_iff] at hl ⊢
    refine (step_keeps (inv := State.levelled) ?_ ?_ ?_ ?_ ?_ ⟨hs, hst, hop, hl⟩ h).levels
    · exact fun _ _ hi => ⟨State.orderly_congr hi.orderly rfl id, hi.stack, hi.operation, hi.levels⟩
    · exact fun _ _ hi => ⟨State.orderly_congr hi.orderly rfl id, hi.stack, hi.operation, hi.levels⟩
    · exact fun _ _ hi => ⟨State.orderly_congr hi.orderly rfl id, hi.stack, hi.operation, hi.levels⟩
    · refine fun s t _ ht => ⟨State.orderly_finish s ht.orderly, State.stackOrdered_finish s ht.stack,
        State.operationFits_finish s ht.operation, ?_⟩
      unfold State.bits
      rw [finish_cf, finish_oc]
      exact ht.levels
    · intro c s t hi h
      obtain ⟨hstack, hoperation⟩ := h.stackAndOperation hi.orderly
      exact ⟨h.orderly hi.orderly, hstack hi.stack, hoperation hi.operation,
        h.levelsFit hi.orderly hi.stack hi.operation hi.levels⟩

end

end Sys2Proof.Machine
